-- ==== Sys2Proof/Word.lean ====
section
/-!
DEFINITION. The value types of the HAD4 block (`00_scope.md` R5, R12, R13; `30_encoding.md` R80).
Every value of the block is an unsigned bit vector of a stated width, bit 0 least significant; the
operators of R13 are those of `BitVec`, whose results have the width of their operands.
-/

namespace Sys2Proof

/-- One byte of a stored trace (R80). -/
abbrev Byte := BitVec 8

/-- A vector with one bit per debouncer lane; its width is `KEY_W`, whose instance value is 8 (R5). -/
abbrev KeyVec := BitVec 8

/-- A pattern on the eight LED lines: bit `i` is line `i` (R5, R12). -/
abbrev Pattern := BitVec 8

/-- A value of the mode timer; its width is `TMR_W`, whose instance value is 16 (R5). -/
abbrev TimerVal := BitVec 16

/-- A 24-bit event word (R80). -/
abbrev EventWord := BitVec 24

/-- `popcount(v)` of R13: the number of bits of `v` that are 1. -/
def popcount {w : Nat} (v : BitVec w) : Nat :=
  (List.range w).countP fun i => v.getLsbD i

end Sys2Proof
end

