-- ==== Sys2Proof/Syntax.lean ====
section
/-!
DEFINITION. The events and operations of the block as syntax: one constructor per row of
`spec/opcode_table.json` (`30_encoding.md` R81, R82), and the two kinds of trace (R85).
-/

namespace Sys2Proof

/-- The four modes (`10_state.md` R28). `ENTER`'s operand names one of them (R83). -/
inductive Mode where
  | sweep
  | alternate
  | flash
  | suspended
deriving DecidableEq, Repr

/-- An event or operation of the block (R82). The operand widths are those of R81's shapes. -/
inductive Instr where
  /-- `RESET`, external: system start (R230). -/
  | reset
  /-- `PIN v`, external: the raw input lines change to `v` (R164). -/
  | pin (v : KeyVec)
  /-- `SAMPLE`, external: one run of the sampler (R122). -/
  | sample
  /-- `TCLK`, external: one count of the mode timer's clock (R144). -/
  | tclk
  /-- `FG`, external: one step of the foreground loop (R190). -/
  | fg
  /-- `POLLCLR m`, internal: read and clear the pending presses under `m` (R126). -/
  | pollclr (m : KeyVec)
  /-- `ARM p`, internal: start the mode timer with period `p` (R140). -/
  | arm (p : TimerVal)
  /-- `STOP`, internal: stop the mode timer (R142). -/
  | stop
  /-- `WRITE p`, internal: drive the eight LED lines (R180). -/
  | write (p : Pattern)
  /-- `ENTER m`, internal: set up mode `m` (R100). -/
  | enter (m : Mode)
  /-- `ONTICK`, internal: advance the active mode by one step (R102). -/
  | ontick
  /-- `ONPRESS`, internal: go on to the next mode (R104). -/
  | onpress
  /-- `PARK`, internal: first half of `park_and_wait` (R160). -/
  | park
  /-- `PARKGO`, internal: second half of `park_and_wait` (R162). -/
  | parkgo
  /-- `WAKE`, internal: the wake handler (R166). -/
  | wake
deriving DecidableEq, Repr

/-- The class of a row of the opcode map (R81): `E` external event, `I` internal operation. -/
inductive EventClass where
  | external
  | internal
deriving DecidableEq, Repr

/-- Which words a trace may hold (R85): a top-level trace drives the composed block with class `E`
words only, a unit-level trace drives one sub-block's rule directly and may hold class `I` words. -/
inductive TraceLevel where
  | top
  | unit
deriving DecidableEq, Repr

end Sys2Proof
end

