-- ==== Sys2Proof/Config.lean ====
section
/-!
DEFINITION. The parameters of one instance of the block (`00_scope.md` R5 to R10, R43). A parameter
with an instance value in the spec is a named constant with that value. A parameter the spec leaves
`OPEN` is an opaque constant: no proof can see its value, so a claim holds whatever it is.
-/

namespace Sys2Proof.Config

/-- `KEY_W`, the number of debouncer lanes (R5): the width of `KeyVec`. -/
def keyW : Nat := 8

/-- `KEY_BIT`, the lane the button is wired to (R5). -/
def keyBit : Nat := 0

/-- `KEY_MASK = 1 << KEY_BIT` (R5). -/
def keyMask : KeyVec := 1#8 <<< keyBit

/-- `TMR_W`, the width of `TCNT` and `TCMP` (R5): the width of `TimerVal`. -/
def tmrW : Nat := 16

/-- `DEB_N`, the number of consecutive differing samples that flip a settled bit (R6). -/
def debN : Nat := 3

/-- Free value behind `P_SWEEP`: the period less one, so that every period of R7's range
`1 <= P <= 2^TMR_W - 1` and no other is possible. `OPEN` (R7, D16; log entry 2). -/
opaque pSweepLessOne : Fin 65535

/-- Free value behind `P_ALT`, as `pSweepLessOne`. `OPEN` (R7, D16; log entry 2). -/
opaque pAltLessOne : Fin 65535

/-- Free value behind `P_FLASH`, as `pSweepLessOne`. `OPEN` (R7, D16; log entry 2). -/
opaque pFlashLessOne : Fin 65535

/-- The period whose value less one is `n`: it lies in 1 to `2^TMR_W - 1` (R7). -/
def periodOf (n : Fin 65535) : TimerVal := BitVec.ofNat 16 (n.val + 1)

/-- `P_SWEEP`, in `TCLK` counts (R7). -/
def pSweep : TimerVal := periodOf pSweepLessOne

/-- `P_ALT`, in `TCLK` counts (R7). -/
def pAlt : TimerVal := periodOf pAltLessOne

/-- `P_FLASH`, in `TCLK` counts (R7). -/
def pFlash : TimerVal := periodOf pFlashLessOne

/-- `P(m)` (R7): the period of a running mode. `P(Suspended)` does not exist. -/
def period : Mode → Option TimerVal
  | .sweep => some pSweep
  | .alternate => some pAlt
  | .flash => some pFlash
  | .suspended => none

/-- `TMR_DIV`, the mode timer's clock divisor. `OPEN` and read by no rule (R7; log entry 3). -/
opaque tmrDiv : Nat

/-- `T_SAMPLE`, the sampling period. `OPEN` and read by no rule (R10; log entry 3). -/
opaque tSample : Nat

/-- `T_SETTLE`, the settle delay. `OPEN` and read by no rule (R10; log entry 3). -/
opaque tSettle : Nat

/-- `ALL_OFF` (R8). -/
def allOff : Pattern := 0x00#8

/-- `ALL_ON` (R8): the complement of `ALL_OFF` on the eight lines. -/
def allOn : Pattern := 0xFF#8

/-- `ALT_MASK` (R8): the instance value is the spec's own choice D13. -/
def altMask : Pattern := 0xAA#8

/-- `SWEEP_INIT`, which is also the end value at bit 0 (R8, R90). -/
def sweepInit : Pattern := 0x01#8

/-- The end value at bit 7 (R8, R90). -/
def sweepTop : Pattern := 0x80#8

/-- The values of the parameter `WAKE_EDGE` (R9). -/
inductive WakeEdge where
  | any
  | falling
  | rising
deriving DecidableEq, Repr

/-- `WAKE_EDGE` (R9): the instance value is `any`. -/
def wakeEdge : WakeEdge := .any

end Sys2Proof.Config
end

