-- ==== Sys2Proof/WellFormed.lean ====
section
/-!
DEFINITION. Which instructions have an encoding (`30_encoding.md` R84). The operand types already
hold each operand to its shape's width (R81); the one check left is that `ARM`'s period is not 0.
-/

namespace Sys2Proof

/-- An instruction the decoder can produce: `ARM 0` is reserved (R84), everything else is not. -/
def Instr.wellFormed : Instr → Bool
  | .arm p => p != 0#16
  | .reset | .pin _ | .sample | .tclk | .fg | .pollclr _ | .stop | .write _ | .enter _
  | .ontick | .onpress | .park | .parkgo | .wake => true

end Sys2Proof
end

