-- ==== Sys2Proof/Decode.lean ====
section
/-!
DEFINITION. The decoder of 24-bit event words and of their three-byte storage, total and rejecting
by name (`30_encoding.md` R80 to R87, `60_exceptions.md` R201), and after it the encoder.
-/

namespace Sys2Proof

/-- The four reasons for which a model refuses a word (R201). -/
inductive Rejection where
  /-- `RF_RESERVED_OP`: `op = 0xF`. -/
  | reservedOp
  /-- `RF_RESERVED_BITS`: `rsv != 0`, or operand bits above the operand's width set. -/
  | reservedBits
  /-- `RF_ARM_RANGE`: `ARM 0`. -/
  | armRange
  /-- `RF_INTERNAL_AT_TOP`: a class `I` word in a top-level trace. -/
  | internalAtTop
deriving DecidableEq, Repr

/-- Why a stored trace yields no instruction: its next word is refused, or fewer than the three
bytes of a word are left (log entry 8). -/
inductive ByteRejection where
  | word (r : Rejection)
  | truncated
deriving DecidableEq, Repr

/-! ### Fields and operand shapes -/

/-- `op = word[23:20]` (R80). -/
def opField (w : EventWord) : BitVec 4 := w.extractLsb' 20 4

/-- `rsv = word[19:16]` (R80). -/
def rsvField (w : EventWord) : BitVec 4 := w.extractLsb' 16 4

/-- `imm = word[15:0]` (R80). -/
def immField (w : EventWord) : BitVec 16 := w.extractLsb' 0 16

/-- The mode whose number (R28, R83) is `c`. -/
def modeOfCode (c : BitVec 2) : Mode :=
  match c.toNat with
  | 0 => .sweep
  | 1 => .alternate
  | 2 => .flash
  | _ => .suspended

/-- Shape `0` (R81): no operand, `imm` must be 0. -/
def shapeNone (imm : BitVec 16) (i : Instr) : Except Rejection Instr :=
  if imm = 0#16 then .ok i else .error .reservedBits

/-- Shapes `K` and `8` (R81): the operand is `imm[7:0]`, the bits above must be 0. -/
def shapeEight (imm : BitVec 16) (mk : BitVec 8 → Instr) : Except Rejection Instr :=
  if imm.extractLsb' 8 8 = 0#8 then .ok (mk (imm.extractLsb' 0 8)) else .error .reservedBits

/-- Shape `2` (R81): the operand is the mode number `imm[1:0]`, the bits above must be 0. -/
def shapeMode (imm : BitVec 16) (mk : Mode → Instr) : Except Rejection Instr :=
  if imm.extractLsb' 2 14 = 0#14 then .ok (mk (modeOfCode (imm.extractLsb' 0 2)))
  else .error .reservedBits

/-- Shape `T` (R81) of `ARM`: the operand is all of `imm`, and 0 is out of range (R84). -/
def shapePeriod (imm : BitVec 16) (mk : BitVec 16 → Instr) : Except Rejection Instr :=
  if imm = 0#16 then .error .armRange else .ok (mk imm)

/-! ### The decoding algorithm (R87) -/

/-- Steps (2) and (3) of R87: the row of the opcode map of R82 and its operand. -/
def decodeRow (op : BitVec 4) (imm : BitVec 16) : Except Rejection Instr :=
  match op.toNat with
  | 0x0 => shapeNone imm .reset
  | 0x1 => shapeEight imm .pin
  | 0x2 => shapeNone imm .sample
  | 0x3 => shapeNone imm .tclk
  | 0x4 => shapeNone imm .fg
  | 0x5 => shapeEight imm .pollclr
  | 0x6 => shapePeriod imm .arm
  | 0x7 => shapeNone imm .stop
  | 0x8 => shapeEight imm .write
  | 0x9 => shapeMode imm .enter
  | 0xA => shapeNone imm .ontick
  | 0xB => shapeNone imm .onpress
  | 0xC => shapeNone imm .park
  | 0xD => shapeNone imm .parkgo
  | 0xE => shapeNone imm .wake
  | _ => .error .reservedOp

/-- The class of an instruction's row (R82). -/
def Instr.eventClass : Instr → EventClass
  | .reset | .pin _ | .sample | .tclk | .fg => .external
  | .pollclr _ | .arm _ | .stop | .write _ | .enter _ | .ontick | .onpress
  | .park | .parkgo | .wake => .internal

/-- Step (4) of R87: a top-level trace admits class `E` only (R85). -/
def admitAt (lvl : TraceLevel) (i : Instr) : Except Rejection Instr :=
  match lvl, i.eventClass with
  | .top, .internal => .error .internalAtTop
  | .top, .external | .unit, _ => .ok i

/-- The decoder of R87 on a word of a trace of the given level, its steps in R87's order. -/
def decode (lvl : TraceLevel) (w : EventWord) : Except Rejection Instr :=
  if rsvField w = 0#4 then
    match decodeRow (opField w) (immField w) with
    | .ok i => admitAt lvl i
    | .error r => .error r
  else .error .reservedBits

/-! ### Words as bytes (R80): three bytes, most significant byte first -/

/-- The word stored as the bytes `hi`, `mid`, `lo` in that order. -/
def wordOfBytes (hi mid lo : Byte) : EventWord := hi ++ (mid ++ lo)

/-- The three bytes that store a word, most significant first. -/
def bytesOfWord (w : EventWord) : List Byte :=
  [w.extractLsb' 16 8, w.extractLsb' 8 8, w.extractLsb' 0 8]

/-- The decoder on a stored trace: the next instruction and the bytes after it. -/
def decodeBytes (lvl : TraceLevel) : List Byte → Except ByteRejection (Instr × List Byte)
  | hi :: mid :: lo :: rest =>
    match decode lvl (wordOfBytes hi mid lo) with
    | .ok i => .ok (i, rest)
    | .error r => .error (.word r)
  | _ => .error .truncated

/-- The word whose low `nbits` bits are those of `w`, every bit above them 0. -/
def tableWord (nbits w : Nat) : EventWord := BitVec.ofNat 24 (w % 2 ^ nbits)

/-- The instruction the decoder reads from the row word `w` of `nbits` bits, laid out as R80 stores
it. Rows of both classes decode, so the word is read as one of a unit-level trace (R85). -/
def decodeTableWord (nbits w : Nat) : Option Instr :=
  match decodeBytes .unit (bytesOfWord (tableWord nbits w)) with
  | .ok (i, _) => some i
  | .error _ => none

/-! ### The encoder -/

/-- The number of a mode (R28, R83). -/
def Mode.code : Mode → BitVec 2
  | .sweep => 0#2
  | .alternate => 1#2
  | .flash => 2#2
  | .suspended => 3#2

/-- The opcode of R82. -/
def Instr.opcode : Instr → BitVec 4
  | .reset => 0x0#4
  | .pin _ => 0x1#4
  | .sample => 0x2#4
  | .tclk => 0x3#4
  | .fg => 0x4#4
  | .pollclr _ => 0x5#4
  | .arm _ => 0x6#4
  | .stop => 0x7#4
  | .write _ => 0x8#4
  | .enter _ => 0x9#4
  | .ontick => 0xA#4
  | .onpress => 0xB#4
  | .park => 0xC#4
  | .parkgo => 0xD#4
  | .wake => 0xE#4

/-- The operand field (R81, R83): the operand in the low bits of `imm`, zeros above it. -/
def Instr.operand : Instr → BitVec 16
  | .pin v => v.setWidth 16
  | .pollclr m => m.setWidth 16
  | .arm p => p
  | .write p => p.setWidth 16
  | .enter m => m.code.setWidth 16
  | .reset | .sample | .tclk | .fg | .stop | .ontick | .onpress | .park | .parkgo | .wake => 0#16

/-- The event word with the given opcode and operand field, its reserved field 0 (R80). -/
def eventWord (op : BitVec 4) (imm : BitVec 16) : EventWord := op ++ (0#4 ++ imm)

/-- The event word of an instruction (R80 to R83). -/
def encode (i : Instr) : EventWord := eventWord i.opcode i.operand

/-- The stored bytes of an instruction (R80). -/
def encodeBytes (i : Instr) : List Byte := bytesOfWord (encode i)

end Sys2Proof
end

