-- ==== Sys2Proof/Machine/State.lean ====
section
/-!
DEFINITION. The state of the block as plain data (`10_state.md` R20): its seventeen named items in
the spec's canonical order, then three items of the model's own (log entries 4, 5 and 6).
-/

namespace Sys2Proof.Machine

/-- The direction of the Sweep Working State (R30). -/
inductive Direction where
  | ascending
  | descending
deriving DecidableEq, Repr

/-- The foreground phase (R34): `PT` poll the tick flag, `PK` poll the key-press flag, `PD` parked in
the settle delay, `PW` parked with the watch armed, halted or just woken. -/
inductive Phase where
  | pt
  | pk
  | pd
  | pw
deriving DecidableEq, Repr

/-- The whole state. Single-bit items are `Bool`, enumerated items are named. -/
structure State where
  /-- `MODE`: the active mode (R28). -/
  mode : Mode
  /-- `PAT`: the pattern of the Sweep Working State (R29). -/
  pat : Pattern
  /-- `DIR`: the direction of the Sweep Working State (R30). -/
  dir : Direction
  /-- `LED`: the output latch of the eight LED lines (R31). -/
  led : Pattern
  /-- `TEN`: the mode timer's clock enable (R24). -/
  ten : Bool
  /-- `TCMP`: the mode timer's threshold (R25). -/
  tcmp : TimerVal
  /-- `TCNT`: the mode timer's counter (R26). -/
  tcnt : TimerVal
  /-- `TICK`: the timer-tick flag (R27). -/
  tick : Bool
  /-- `KEY_STATE`: the settled logical level of every lane, 1 pressed (R21). -/
  keyState : KeyVec
  /-- `CT1`: the high bit plane of the lanes' sample counters (R22). -/
  ct1 : KeyVec
  /-- `CT0`: the low bit plane of the lanes' sample counters (R22). -/
  ct0 : KeyVec
  /-- `KEY_PRESS`: the pending-press bitmask (R23). -/
  keyPress : KeyVec
  /-- `KEYIN`: the raw level of the input lines (R32). -/
  keyin : KeyVec
  /-- `WAKE_EN`: the enable of the wake-on-change watch (R35). -/
  wakeEn : Bool
  /-- `HALT`: the block is in the halt state (R36). -/
  halt : Bool
  /-- `IE`: the global interrupt enable (R37). -/
  ie : Bool
  /-- `FGP`: the foreground phase (R34). -/
  fgp : Phase
  /-- The model's own: which words the trace being run may hold (R85; log entry 5). -/
  level : TraceLevel
  /-- The model's own: the event words the environment will present, next first (R14; log entry 4). -/
  trace : List EventWord
  /-- The model's own: what the last `POLLCLR` presented as a word returned (R126; log entry 6). -/
  result : Option KeyVec
deriving DecidableEq, Repr

/-- The reasons a step can fault: none. The block has no fault, trap or error state (R16, R200). -/
inductive Fault where
deriving DecidableEq, Repr

/-- The reasons a word is refused. The first four are those of R201 and are the model's, not the
hardware's; a refusal changes no register. -/
inductive Refusal where
  /-- `RF_RESERVED_OP`: raised by `step` on a word with `op = 0xF`. Safe: the hardware has no such input. -/
  | reservedOp
  /-- `RF_RESERVED_BITS`: raised by `step` on a word with `rsv != 0` or operand bits above the operand's
  width set. Safe: the hardware has no such input. -/
  | reservedBits
  /-- `RF_ARM_RANGE`: raised by `step` on `ARM 0`. Safe: the composed block never arms with 0 (R140). -/
  | armRange
  /-- `RF_INTERNAL_AT_TOP`: raised by `step` on a class `I` word of a top-level trace. Safe: nothing
  outside the block can invoke an internal operation (R85). -/
  | internalAtTop
  /-- Raised by `exec` on an instruction that has no meaning yet. Safe; no arm of `exec` raises it. -/
  | notModelled (mnemonic : String)
deriving DecidableEq, Repr

/-- The outcome of an event. -/
abbrev Result := Host.Outcome State Fault Refusal

/-- The start state `S0` (R232) that `RESET` leaves. `KEYIN` has no reset value; the model names
0xFF, every line high, as the spec's vectors do (R32; log entry 1). No event waits. -/
def State.reset : State where
  mode := .sweep
  pat := 0x01#8
  dir := .ascending
  led := 0x00#8
  ten := true
  tcmp := Config.pSweep
  tcnt := 0#16
  tick := false
  keyState := 0#8
  ct1 := 0#8
  ct0 := 0#8
  keyPress := 0#8
  keyin := 0xFF#8
  wakeEn := false
  halt := false
  ie := true
  fgp := .pt
  level := .top
  trace := []
  result := none

end Sys2Proof.Machine
end

