-- ==== Sys2Proof/Machine/Flags.lean ====
section
/-!
DEFINITION. The conditions the rules test and the bits they compute: the gates of the interrupt
sources (`60_exceptions.md` R202), the edge match of the watch (`44_suspend_controller.md` R164),
the end test of the sweep (`41_mode_state_machine.md` R102) and the bit-plane equations of the
debouncer (`42_debouncer.md` R124), with R122's rule for one lane beside them.
-/

namespace Sys2Proof.Machine

/-! ### Gates -/

/-- `SAMPLE` acts only when `HALT = 0` and `IE = 1` (R122, R128). -/
def sampleGate (s : State) : Bool := !s.halt && s.ie

/-- `TCLK` counts only when `TEN = 1` and `HALT = 0`; it does not look at `IE` (R144). -/
def tclkGate (s : State) : Bool := s.ten && !s.halt

/-- The watch fires only when it is armed and interrupts are enabled (R164). -/
def wakeGate (s : State) : Bool := s.wakeEn && s.ie

/-- The match of R164: does the transition from `old` to `new` of the button line match `e`? -/
def edgeMatches (e : Config.WakeEdge) (old new : Bool) : Bool :=
  match e with
  | .any => old != new
  | .falling => old && !new
  | .rising => !old && new

/-- The end test of R102: the pattern stands at bit 0 or at bit 7. -/
def sweepAtEnd (p : Pattern) : Bool := p == Config.sweepInit || p == Config.sweepTop

/-! ### The debouncer on whole bit planes (R121, R124) -/

/-- The logical level of every lane, 1 pressed: the complement of the raw level (R121). -/
def logicalLevel (keyin : KeyVec) : KeyVec := ~~~keyin

/-- `d`: the lanes whose sample differs from the settled bit (R124). -/
def debDiff (s : State) : KeyVec := logicalLevel s.keyin ^^^ s.keyState

/-- `tog = d & CT1`: the lanes whose settled bit flips (R124). -/
def debToggle (s : State) : KeyVec := debDiff s &&& s.ct1

/-- `CT0' = d & ~CT1 & ~CT0` (R124). -/
def debCt0 (s : State) : KeyVec := debDiff s &&& ~~~s.ct1 &&& ~~~s.ct0

/-- `CT1' = d & ~CT1 & CT0` (R124). -/
def debCt1 (s : State) : KeyVec := debDiff s &&& ~~~s.ct1 &&& s.ct0

/-- `KEY_STATE' = KEY_STATE ^ tog` (R124). -/
def debKeyState (s : State) : KeyVec := s.keyState ^^^ debToggle s

/-- `KEY_PRESS' = KEY_PRESS | (tog & ~KEY_STATE)`: press edges only (R124, R125). -/
def debKeyPress (s : State) : KeyVec := s.keyPress ||| (debToggle s &&& ~~~s.keyState)

/-! ### One lane (R120, R122) -/

/-- One lane of the debouncer: its settled bit, its count `DCNT[i]` and its pending bit (R120). -/
structure Lane where
  settled : Bool
  count : Nat
  pending : Bool
deriving DecidableEq, Repr

/-- Lane `i` of the state, `DCNT[i] = {CT1[i], CT0[i]}` (R22). -/
def laneOf (s : State) (i : Nat) : Lane where
  settled := s.keyState.getLsbD i
  count := 2 * (s.ct1.getLsbD i).toNat + (s.ct0.getLsbD i).toNat
  pending := s.keyPress.getLsbD i

/-- The body of R122's loop for one lane that reads the logical level `lvl`. A count of 3 is
unreachable and treated as 2. -/
def laneSample (lvl : Bool) (l : Lane) : Lane :=
  if lvl = l.settled then { l with count := 0 }
  else if 2 ≤ l.count then { settled := lvl, count := 0, pending := l.pending || lvl }
  else { l with count := l.count + 1 }

end Sys2Proof.Machine
end

