-- ==== Sys2Proof/Machine/Operands.lean ====
section
/-!
DEFINITION. The numbers that stand for named values of the state (`10_state.md` R28, R30, R34), the
state's canonical printing order (R20) and the values the block itself passes as operands
(`30_encoding.md` R83).
-/

namespace Sys2Proof.Machine

/-- `next(m)` (R28): the next mode in the cyclic order Sweep, Alternate, Flash, Suspended. -/
def nextMode : Mode → Mode
  | .sweep => .alternate
  | .alternate => .flash
  | .flash => .suspended
  | .suspended => .sweep

/-- `~DIR` (R30, R102). -/
def flipDirection : Direction → Direction
  | .ascending => .descending
  | .descending => .ascending

/-- The encoding of `DIR` (R30). -/
def Direction.code : Direction → BitVec 1
  | .ascending => 0#1
  | .descending => 1#1

/-- The encoding of `FGP` (R34). -/
def Phase.code : Phase → BitVec 2
  | .pt => 0#2
  | .pk => 1#2
  | .pd => 2#2
  | .pw => 3#2

/-- The level of the button line in a vector of raw levels: bit `KEY_BIT` (R164). -/
def buttonLine (v : KeyVec) : Bool := v.getLsbD Config.keyBit

/-- The shift of a Sweep tick (R30, R102): toward bit 7 ascending, toward bit 0 descending; the bit
moved off the end is lost (R13). -/
def sweepShift : Direction → Pattern → Pattern
  | .ascending, p => p <<< 1
  | .descending, p => p >>> 1

/-- The seventeen items as numbers in R20's canonical order, `MODE PAT DIR LED TEN TCMP TCNT TICK
KEY_STATE CT1 CT0 KEY_PRESS KEYIN WAKE_EN HALT IE FGP`. -/
def State.canonical (s : State) : List Nat :=
  [s.mode.code.toNat, s.pat.toNat, s.dir.code.toNat, s.led.toNat, s.ten.toNat, s.tcmp.toNat,
    s.tcnt.toNat, s.tick.toNat, s.keyState.toNat, s.ct1.toNat, s.ct0.toNat, s.keyPress.toNat,
    s.keyin.toNat, s.wakeEn.toNat, s.halt.toNat, s.ie.toNat, s.fgp.code.toNat]

end Sys2Proof.Machine
end

