-- ==== Sys2Proof/Machine/Ops.lean ====
section
/-!
DEFINITION. The operations the rules name and call in place (`00_scope.md` R15,
`46_foreground_sequencer.md` R192), each a total function of the state, and the taking of an
interrupt (`60_exceptions.md` R202, R209), which the three interrupt sources share.
-/

namespace Sys2Proof.Machine

/-! ### The mode timer (R140, R142) -/

/-- `ARM p`: stop, load the threshold, zero the counter, enable; `TICK` is not touched (R140). -/
def armTimer (p : TimerVal) (s : State) : State := { s with ten := true, tcmp := p, tcnt := 0#16 }

/-- `STOP`: disable and zero the counter; the threshold is kept (R142). -/
def stopTimer (s : State) : State := { s with ten := false, tcnt := 0#16 }

/-! ### The display driver (R180) -/

/-- `WRITE p`: all eight lines at once (R180). -/
def writeLed (p : Pattern) (s : State) : State := { s with led := p }

/-! ### The suspend controller (R160, R162, R166) -/

/-- `PARK`: interrupts off, into the settle delay (R160). -/
def parkBlock (s : State) : State := { s with ie := false, fgp := .pd }

/-- `PARKGO`: watch armed, interrupts on, halted, in one event (R162). -/
def parkGoBlock (s : State) : State :=
  { s with wakeEn := true, ie := true, halt := true, fgp := .pw }

/-- `WAKE`: watch disarmed, halt lifted, nothing else (R166). -/
def wakeBlock (s : State) : State := { s with wakeEn := false, halt := false }

/-! ### The foreground's read-and-clear (R126) -/

/-- `POLLCLR m`: the pending presses under `m`, and the state with exactly those bits cleared. -/
def pollClear (m : KeyVec) (s : State) : KeyVec × State :=
  let matched := m &&& s.keyPress
  (matched, { s with keyPress := s.keyPress &&& ~~~matched })

/-! ### The mode state machine (R100, R102, R104) -/

/-- `ENTER m` (R100). `ENTER Sweep` does not write `LED` (R101); `ENTER Suspended` ends after `PARK`. -/
def enterMode (m : Mode) (s : State) : State :=
  match m with
  | .sweep => armTimer Config.pSweep { s with pat := Config.sweepInit, dir := .ascending }
  | .alternate => armTimer Config.pAlt (writeLed Config.altMask s)
  | .flash => armTimer Config.pFlash (writeLed Config.allOn s)
  | .suspended => parkBlock (writeLed Config.allOff s)

/-- The Sweep case of `ONTICK` (R102): shift, display, then the flip check on the shifted pattern. -/
def sweepTick (s : State) : State :=
  let p := sweepShift s.dir s.pat
  let shown := writeLed p { s with pat := p }
  { shown with dir := if sweepAtEnd p then flipDirection s.dir else s.dir }

/-- `ONTICK` (R102). The Suspended case is the post-wake recovery. -/
def onTick (s : State) : State :=
  match s.mode with
  | .sweep => sweepTick s
  | .alternate => writeLed (~~~s.led) s
  | .flash => writeLed (~~~s.led) s
  | .suspended => enterMode .sweep { s with mode := .sweep }

/-- `ONPRESS` (R104): stop the timer, discard a pending tick, go on to the next mode, enter it. -/
def onPress (s : State) : State :=
  enterMode (nextMode s.mode) { stopTimer s with tick := false, mode := nextMode s.mode }

/-! ### Interrupts (R202 to R211) -/

/-- The three interrupt sources and no others (R202). -/
inductive Irq where
  | sample
  | tmr
  | wake
deriving DecidableEq, Repr

/-- The handler of `IRQ_SAMPLE`: the open-gate body of `SAMPLE`, every lane at once (R122, R124). -/
def sampleHandler (s : State) : State :=
  { s with
    keyState := debKeyState s
    ct1 := debCt1 s
    ct0 := debCt0 s
    keyPress := debKeyPress s }

/-- The handler of `IRQ_TMR`: `TCNT <- 0 ; TICK <- 1` (R144, R202). -/
def timerHandler (s : State) : State := { s with tcnt := 0#16, tick := true }

/-- When a source that is raised is taken (R202). A source whose gate is closed is not remembered
(R41, R203 to R205). -/
def irqOpen (q : Irq) (s : State) : Bool :=
  match q with
  | .sample => sampleGate s
  | .tmr => tclkGate s
  | .wake => wakeGate s

/-- The one fixed handler of each source (R209). -/
def irqHandler (q : Irq) (s : State) : State :=
  match q with
  | .sample => sampleHandler s
  | .tmr => timerHandler s
  | .wake => wakeBlock s

/-- Taking an interrupt (R209): if its gate is open its handler runs, as part of the same atomic
event. Entry saves nothing and changes no mode and no mask; there is nothing to return from (R211). -/
def takeInterrupt (q : Irq) (s : State) : State := if irqOpen q s then irqHandler q s else s

/-! ### The events' bodies -/

/-- `PIN v` with the edge parameter `e` (R164): the lines take their new level, and a matching
transition of the button line raises `IRQ_WAKE`. -/
def pinChange (e : Config.WakeEdge) (v : KeyVec) (s : State) : State :=
  let moved := { s with keyin := v }
  if edgeMatches e (buttonLine s.keyin) (buttonLine v) then takeInterrupt .wake moved else moved

/-- `TCLK` (R144): count; when the incremented count equals the threshold, raise `IRQ_TMR`. -/
def countStrobe (s : State) : State :=
  if tclkGate s then
    if s.tcnt + 1#16 = s.tcmp then takeInterrupt .tmr s else { s with tcnt := s.tcnt + 1#16 }
  else s

/-- `FG` (R190): one step of the foreground loop, held while `HALT = 1`. -/
def foregroundStep (s : State) : State :=
  if s.halt then s
  else
    match s.fgp with
    | .pt => { (if s.tick then { onTick s with tick := false } else s) with fgp := .pk }
    | .pk =>
      let polled := pollClear Config.keyMask { s with fgp := .pt }
      if polled.1 = 0#8 then polled.2 else onPress polled.2
    | .pd => parkGoBlock s
    | .pw => { s with tick := true, fgp := .pt }

/-- Loads every register but `KEYIN` with its power-on value (R20, R40, R230). The model's own items
are no registers and stay (log entry 4). -/
def loadPowerOn (s : State) : State :=
  { s with
    mode := .sweep, pat := 0x01#8, dir := .ascending, led := 0x00#8
    ten := false, tcmp := 0#16, tcnt := 0#16, tick := false
    keyState := 0#8, ct1 := 0#8, ct0 := 0#8, keyPress := 0#8
    wakeEn := false, halt := false, ie := false, fgp := .pt }

/-- `RESET` (R230): power-on values, then the start-up sequence of R231. -/
def resetBlock (s : State) : State := { enterMode .sweep (loadPowerOn s) with ie := true }

end Sys2Proof.Machine
end

