-- ==== Sys2Proof/Machine/Debouncer.lean ====
section
/-!
DEFINITION. DEB: the meanings of `SAMPLE` and `POLLCLR` (`42_debouncer.md` R122, R126).
-/

namespace Sys2Proof.Machine

/-- `SAMPLE` (R122): `IRQ_SAMPLE` is raised; with its gate closed this is a no-op step (R128). -/
def execSample (s : State) : Result := .next (takeInterrupt .sample s)

/-- `POLLCLR m` as a word of a unit-level trace (R126): the bits it returns are kept in `result`. -/
def execPollclr (m : KeyVec) (s : State) : Result :=
  .next { (pollClear m s).2 with result := some (pollClear m s).1 }

end Sys2Proof.Machine
end

