-- ==== Sys2Proof/Machine/Display.lean ====
section
/-!
DEFINITION. The display driver: the meaning of `WRITE` (`45_display_driver_gpio.md` R180).
-/

namespace Sys2Proof.Machine

/-- `WRITE p` (R180): no guard, no partial update. -/
def execWrite (p : Pattern) (s : State) : Result := .next (writeLed p s)

end Sys2Proof.Machine
end

