-- ==== Sys2Proof/Machine/Foreground.lean ====
section
/-!
DEFINITION. The foreground sequencer and system start: the meanings of `FG`
(`46_foreground_sequencer.md` R190) and `RESET` (`70_reset_and_hazards.md` R230).
-/

namespace Sys2Proof.Machine

/-- `FG` (R190). -/
def execFg (s : State) : Result := .next (foregroundStep s)

/-- `RESET` (R230): usable at any time. -/
def execReset (s : State) : Result := .next (resetBlock s)

end Sys2Proof.Machine
end

