-- ==== Sys2Proof/Machine/ModeTimer.lean ====
section
/-!
DEFINITION. MTMR: the meanings of `ARM`, `STOP` and `TCLK` (`43_mode_timer.md` R140, R142, R144).
-/

namespace Sys2Proof.Machine

/-- `ARM p` (R140). The decoder refuses `ARM 0`; the operation itself is total (log entry 9). -/
def execArm (p : TimerVal) (s : State) : Result := .next (armTimer p s)

/-- `STOP` (R142). -/
def execStop (s : State) : Result := .next (stopTimer s)

/-- `TCLK` (R144). -/
def execTclk (s : State) : Result := .next (countStrobe s)

end Sys2Proof.Machine
end

