-- ==== Sys2Proof/Machine/Sequencer.lean ====
section
/-!
DEFINITION. SEQ: the meanings of `ENTER`, `ONTICK` and `ONPRESS` (`41_mode_state_machine.md` R100,
R102, R104).
-/

namespace Sys2Proof.Machine

/-- `ENTER m` (R100). -/
def execEnter (m : Mode) (s : State) : Result := .next (enterMode m s)

/-- `ONTICK` (R102): it neither reads nor clears `TICK`. -/
def execOntick (s : State) : Result := .next (onTick s)

/-- `ONPRESS` (R104): it neither reads nor clears `KEY_PRESS`. -/
def execOnpress (s : State) : Result := .next (onPress s)

end Sys2Proof.Machine
end

