-- ==== Sys2Proof/Machine/Suspend.lean ====
section
/-!
DEFINITION. PWR: the meanings of `PIN`, `PARK`, `PARKGO` and `WAKE` (`44_suspend_controller.md`
R160, R162, R164, R166).
-/

namespace Sys2Proof.Machine

/-- `PIN v` (R164), with the instance's `WAKE_EDGE`. -/
def execPin (v : KeyVec) (s : State) : Result := .next (pinChange Config.wakeEdge v s)

/-- `PARK` (R160). -/
def execPark (s : State) : Result := .next (parkBlock s)

/-- `PARKGO` (R162). -/
def execParkgo (s : State) : Result := .next (parkGoBlock s)

/-- `WAKE` (R166). -/
def execWake (s : State) : Result := .next (wakeBlock s)

end Sys2Proof.Machine
end

