-- ==== Sys2Proof/Machine/Dispatch.lean ====
section
/-!
DEFINITION. The meaning of every event and operation: one arm per row of the opcode map (R82).
-/

namespace Sys2Proof.Machine

def exec (i : Instr) (s : State) : Host.Outcome State Fault Refusal :=
  match i with
  | .reset => Sys2Proof.Machine.execReset s
  | .pin v => Sys2Proof.Machine.execPin v s
  | .sample => Sys2Proof.Machine.execSample s
  | .tclk => Sys2Proof.Machine.execTclk s
  | .fg => Sys2Proof.Machine.execFg s
  | .pollclr m => Sys2Proof.Machine.execPollclr m s
  | .arm p => Sys2Proof.Machine.execArm p s
  | .stop => Sys2Proof.Machine.execStop s
  | .write p => Sys2Proof.Machine.execWrite p s
  | .enter m => Sys2Proof.Machine.execEnter m s
  | .ontick => Sys2Proof.Machine.execOntick s
  | .onpress => Sys2Proof.Machine.execOnpress s
  | .park => Sys2Proof.Machine.execPark s
  | .parkgo => Sys2Proof.Machine.execParkgo s
  | .wake => Sys2Proof.Machine.execWake s

end Sys2Proof.Machine
end

