-- ==== Sys2Proof/Machine/Present.lean ====
section
/-!
DEFINITION. Presenting words and runs of events to the block (`00_scope.md` R16, `30_encoding.md`
R85, R87): a valid word runs its row's rule, any other is refused by name and changes no register.
-/

namespace Sys2Proof.Machine

/-- The refusal that marks a run for each reason of R201. -/
def refusalOf : Rejection → Refusal
  | .reservedOp => .reservedOp
  | .reservedBits => .reservedBits
  | .armRange => .armRange
  | .internalAtTop => .internalAtTop

/-- Presents one word as a word of the trace being run (R87). -/
def presentWord (w : EventWord) (s : State) : Result :=
  match decode s.level w with
  | .ok i => exec i s
  | .error r => .refused (refusalOf r)

/-- The next word the environment presents, and the state with it taken from the trace. -/
def takeWord (s : State) : Option (EventWord × State) :=
  match s.trace with
  | [] => none
  | w :: rest => some (w, { s with trace := rest })

/-- The level of trace on which a word can run: class `I` words need a unit-level trace (R85), for
any other word the level stays as it is. -/
def levelFor (w : EventWord) (lvl : TraceLevel) : TraceLevel :=
  match decode .unit w with
  | .ok i =>
    match i.eventClass with
    | .internal => .unit
    | .external => lvl
  | .error _ => lvl

/-- Puts a word before the words that wait, on a trace of a level on which it can run. -/
def putWord (w : EventWord) (s : State) : State :=
  { s with level := levelFor w s.level, trace := w :: s.trace }

/-- One outcome after another: a fault or a refusal ends the run. -/
def andThen (o : Result) (f : State → Result) : Result :=
  match o with
  | .next s => f s
  | .fault r => .fault r
  | .refused r => .refused r

/-- The events of a list in their order (R14, R68), each from the state the last one left. -/
def runEvents : List Instr → State → Result
  | [], s => .next s
  | i :: rest, s => andThen (exec i s) (runEvents rest)

end Sys2Proof.Machine
end

