-- ==== Sys2Proof/Machine/Step.lean ====
section
/-!
DEFINITION. One step of the machine: the next event the environment presents (`00_scope.md` R14,
R16). With no event waiting nothing happens (log entry 4).
-/

namespace Sys2Proof.Machine

/-- One step: the next word of the trace is taken and presented. -/
def step (s : State) : Host.Outcome State Fault Refusal :=
  match takeWord s with
  | none => .next s
  | some (w, t) => presentWord w t

/-- The state with the table's word `w` placed as the next event, on a trace of a level that admits
it (log entry 5). -/
def State.withFetchWord (s : State) (nbits w : Nat) : State := putWord (tableWord nbits w) s

end Sys2Proof.Machine
end

