-- ==== Sys2Proof/Machine/Ports.lean ====
section
/-!
DEFINITION. The optional binding of the events to ports (`10_state.md` R42) and the fixed order of
strobes that are active at the same instant (`60_exceptions.md` R208). The order is one of those the
event level admits, so a claim about this binding is not a claim about the block.
-/

namespace Sys2Proof.Machine

/-- The input ports at one instant (R42): `rst`, `key_in`, `sample_stb`, `tclk_stb`, `fg_stb`. -/
structure PortInputs where
  rst : Bool
  keyIn : KeyVec
  sampleStb : Bool
  tclkStb : Bool
  fgStb : Bool
deriving DecidableEq, Repr

/-- The output ports (R42): `led` and `halted`. -/
structure PortOutputs where
  led : Pattern
  halted : Bool
deriving DecidableEq, Repr

/-- The values on the output ports (R42). -/
def State.outputs (s : State) : PortOutputs where
  led := s.led
  halted := s.halt

/-- The event of an input that is active, and none of one that is not. -/
def eventIf (active : Bool) (i : Instr) : List Instr := if active then [i] else []

/-- The events of one instant, given the levels `KEYIN` before it (R42, R208): `RESET` alone if
`rst` is active, else `PIN` (if the lines changed), `SAMPLE`, `TCLK`, `FG`. -/
def portEvents (keyin : KeyVec) (p : PortInputs) : List Instr :=
  if p.rst then [.reset]
  else
    eventIf (p.keyIn != keyin) (.pin p.keyIn) ++ eventIf p.sampleStb .sample ++
      eventIf p.tclkStb .tclk ++ eventIf p.fgStb .fg

/-- One instant of the block driven through its ports: its events, one after another. -/
def portStep (p : PortInputs) (s : State) : Result := runEvents (portEvents s.keyin p) s

end Sys2Proof.Machine
end

