-- ==== Sys2Proof/Machine/Trace.lean ====
section
/-!
DEFINITION. The trace syntax of `30_encoding.md` R88 and its pseudo-operations (R89), and the text form
of R80. A line is read into a word by its mnemonic and operand, and the decoder of R87 then judges the
word, so a line is refused exactly when its word is. Text is a list of characters.
-/

namespace Sys2Proof.Machine

/-- One line of a trace. -/
inductive Line where
  /-- An event or operation, as its word. -/
  | word (w : EventWord)
  /-- An event or operation whose operand has more bits than `imm`. -/
  | tooWide
  /-- `REP n X`: `n` copies of the line `X`. -/
  | rep (n : Nat) (l : Line)
  /-- `PUSH`: `PIN (KEYIN & ~KEY_MASK)`. -/
  | push
  /-- `RELEASE`: `PIN (KEYIN | KEY_MASK)`. -/
  | release
  /-- `LOOP`: `FG` twice. -/
  | loop
deriving DecidableEq, Repr

/-! ### Running lines (R89): pseudo-operations are expanded while the trace runs -/

/-- `n` copies of one run, each from the state the last one left. -/
def repeatRun (f : State → Result) : Nat → State → Result
  | 0, s => .next s
  | n + 1, s => andThen (f s) (repeatRun f n)

/-- Runs one line from the state it finds. -/
def Line.run : Line → State → Result
  | .word w => presentWord w
  | .tooWide => fun _ => .refused .reservedBits
  | .rep n l => repeatRun l.run n
  | .push => fun s => presentWord (encode (.pin (s.keyin &&& ~~~Config.keyMask))) s
  | .release => fun s => presentWord (encode (.pin (s.keyin ||| Config.keyMask))) s
  | .loop => fun s => andThen (presentWord (encode .fg) s) (presentWord (encode .fg))

/-- Runs a trace: the order of its lines is the order of events (R88). -/
def runLines : List Line → State → Result
  | [], s => .next s
  | l :: rest, s => andThen (l.run s) (runLines rest)

/-! ### Reading text (R88) -/

/-- The value of a hexadecimal digit, in capitals or not (log entry 10). -/
def digitValue (c : Char) : Option Nat :=
  if '0' ≤ c ∧ c ≤ '9' then some (c.toNat - 48)
  else if 'A' ≤ c ∧ c ≤ 'F' then some (c.toNat - 55)
  else if 'a' ≤ c ∧ c ≤ 'f' then some (c.toNat - 87)
  else none

/-- The number that `acc` followed by the given digits stands for. -/
def digitsValue (base : Nat) : Nat → List Char → Option Nat
  | acc, [] => some acc
  | acc, c :: cs =>
    match digitValue c with
    | some d => if d < base then digitsValue base (base * acc + d) cs else none
    | none => none

/-- A number: hexadecimal `0x..` or decimal, with at least one digit. -/
def parseNumber : List Char → Option Nat
  | '0' :: 'x' :: c :: cs => digitsValue 16 0 (c :: cs)
  | c :: cs => digitsValue 10 0 (c :: cs)
  | [] => none

/-- The mode names that `ENTER`'s operand may also be. -/
def parseModeName : List Char → Option Nat
  | ['S', 'w', 'e', 'e', 'p'] => some 0
  | ['A', 'l', 't', 'e', 'r', 'n', 'a', 't', 'e'] => some 1
  | ['F', 'l', 'a', 's', 'h'] => some 2
  | ['S', 'u', 's', 'p', 'e', 'n', 'd', 'e', 'd'] => some 3
  | _ => none

/-- The opcode of a mnemonic that takes no operand (R82). -/
def plainMnemonic : List Char → Option (BitVec 4)
  | ['R', 'E', 'S', 'E', 'T'] => some 0x0#4
  | ['S', 'A', 'M', 'P', 'L', 'E'] => some 0x2#4
  | ['T', 'C', 'L', 'K'] => some 0x3#4
  | ['F', 'G'] => some 0x4#4
  | ['S', 'T', 'O', 'P'] => some 0x7#4
  | ['O', 'N', 'T', 'I', 'C', 'K'] => some 0xA#4
  | ['O', 'N', 'P', 'R', 'E', 'S', 'S'] => some 0xB#4
  | ['P', 'A', 'R', 'K'] => some 0xC#4
  | ['P', 'A', 'R', 'K', 'G', 'O'] => some 0xD#4
  | ['W', 'A', 'K', 'E'] => some 0xE#4
  | _ => none

/-- The opcode of a mnemonic that takes an operand (R82). -/
def operandMnemonic : List Char → Option (BitVec 4)
  | ['P', 'I', 'N'] => some 0x1#4
  | ['P', 'O', 'L', 'L', 'C', 'L', 'R'] => some 0x5#4
  | ['A', 'R', 'M'] => some 0x6#4
  | ['W', 'R', 'I', 'T', 'E'] => some 0x8#4
  | ['E', 'N', 'T', 'E', 'R'] => some 0x9#4
  | _ => none

/-- The line of an opcode with the operand `n`. -/
def operandLine (op : BitVec 4) (n : Nat) : Line :=
  if n < 2 ^ 16 then .word (eventWord op (BitVec.ofNat 16 n)) else .tooWide

/-- A pseudo-operation without an argument (R89). -/
def pseudoLine : List Char → Option Line
  | ['P', 'U', 'S', 'H'] => some .push
  | ['R', 'E', 'L', 'E', 'A', 'S', 'E'] => some .release
  | ['L', 'O', 'O', 'P'] => some .loop
  | _ => none

/-- The line that the words of a text line stand for; `none` where the syntax has no such line. -/
def parseTokens : List (List Char) → Option Line
  | [tok] =>
    match plainMnemonic tok with
    | some op => some (.word (eventWord op 0#16))
    | none => pseudoLine tok
  | ['R', 'E', 'P'] :: count :: rest =>
    match parseNumber count, parseTokens rest with
    | some n, some l => some (.rep n l)
    | _, _ => none
  | [tok, arg] =>
    match operandMnemonic tok, parseNumber arg, parseModeName arg with
    | some op, some n, _ => some (operandLine op n)
    | some op, none, some n => if op = 0x9#4 then some (operandLine op n) else none
    | _, _, _ => none
  | _ => none

/-- The words of a text: what stands between spaces. -/
def splitSpaces : List Char → List (List Char)
  | [] => [[]]
  | c :: cs =>
    if c = ' ' then [] :: splitSpaces cs
    else
      match splitSpaces cs with
      | t :: ts => (c :: t) :: ts
      | [] => [[c]]

/-- Reads one text line: a `;` starts a comment, a blank line is ignored (`some none`), and `none`
says that the line is not in the syntax. -/
def parseLine (text : List Char) : Option (Option Line) :=
  match (splitSpaces (text.takeWhile (· != ';'))).filter (· != []) with
  | [] => some none
  | toks => (parseTokens toks).map some

/-- The lines of a text: what stands between line ends. -/
def splitLines : List Char → List (List Char)
  | [] => [[]]
  | c :: cs =>
    if c = '\n' then [] :: splitLines cs
    else
      match splitLines cs with
      | t :: ts => (c :: t) :: ts
      | [] => [[c]]

/-- Reads a whole trace; `none` if a line of it is not in the syntax. -/
def parseTrace (text : List Char) : Option (List Line) :=
  ((splitLines text).mapM parseLine).map fun ls => ls.filterMap id

/-- A word as six hexadecimal digits (R80). -/
def parseHexWord (tok : List Char) : Option EventWord :=
  if tok.length = 6 then (digitsValue 16 0 tok).map (BitVec.ofNat 24) else none

/-- Reads the other text form of a trace, six hexadecimal digits a word (R80), the words standing
between spaces and line ends (log entry 10). -/
def parseHexTrace (text : List Char) : Option (List EventWord) :=
  (((splitLines text).flatMap splitSpaces).filter (· != [])).mapM parseHexWord

end Sys2Proof.Machine
end

