-- ==== Sys2Proof/Safety.lean ====
section
/-!
DEFINITION. What the spec promises of every state reachable from `RESET`: the invariants of
`70_reset_and_hazards.md` R236 to R238, and the power states of `60_exceptions.md` R217.
-/

namespace Sys2Proof.Safety

open Sys2Proof Machine

/-- R236: `PAT` is one-hot, the pair `(PAT, DIR)` never points off an end, and in Sweep `LED` shows
`PAT` or is dark, dark only while the Sweep Working State is as `ENTER Sweep` left it, before the first
Sweep tick. -/
structure SweepInv (s : State) : Prop where
  oneHot : popcount s.pat = 1
  notOffTop : ¬(s.pat = Config.sweepTop ∧ s.dir = .ascending)
  notOffBottom : ¬(s.pat = Config.sweepInit ∧ s.dir = .descending)
  shown : s.mode = .sweep → s.led = s.pat ∨ s.led = Config.allOff
  darkBeforeFirstTick : s.mode = .sweep → s.led = Config.allOff →
    s.pat = Config.sweepInit ∧ s.dir = .ascending

/-- R237 (a) and (b): `IE = 0` exactly in the settle delay, `HALT` and `WAKE_EN` go together, and the
block halts only at `PW`. -/
structure PowerInv (s : State) : Prop where
  deafInDelay : s.ie = false ↔ s.fgp = .pd
  haltWatched : s.halt = true ↔ s.wakeEn = true
  haltParked : s.halt = true → s.fgp = .pw

/-- R237 (c) and (e): what holds while the foreground is parked and while the mode is Suspended. -/
structure ParkInv (s : State) : Prop where
  parked : s.fgp = .pd ∨ s.fgp = .pw →
    s.mode = .suspended ∧ s.led = Config.allOff ∧ s.ten = false ∧ s.tcnt = 0#16 ∧ s.tick = false
  neverPollsKeys : s.mode = .suspended → s.fgp ≠ .pk
  tickWaits : s.mode = .suspended → s.fgp = .pt → s.tick = true
  dark : s.mode = .suspended → s.led = Config.allOff

/-- R237 (d), with R147: the timer is armed, at the mode's period and with a count below it, exactly
in a running mode; stopped, its count is 0. -/
structure TimerInv (s : State) : Prop where
  armedWhenRunning : s.ten = true ↔ s.mode ≠ .suspended
  threshold : s.ten = true → Config.period s.mode = some s.tcmp
  countBelow : s.ten = true → s.tcnt.toNat < s.tcmp.toNat
  stoppedAtZero : s.ten = false → s.tcnt = 0#16

/-- R238: no lane's count is 3. -/
def DebInv (s : State) : Prop := s.ct1 &&& s.ct0 = 0#8

/-- The invariants of R236, R237 and R238 together. -/
structure Inv (s : State) : Prop where
  sweep : SweepInv s
  power : PowerInv s
  park : ParkInv s
  timer : TimerInv s
  deb : DebInv s

/-- The power states (R217). -/
inductive PowerState where
  | run
  | delay
  | halted
deriving DecidableEq, Repr

/-- The power state, told apart by `HALT` and `FGP` (R217). -/
def powerState (s : State) : PowerState :=
  if s.halt then .halted else if s.fgp = .pd then .delay else .run

/-- Two states that agree on everything but the debouncer lanes other than the button's (R120). -/
structure SameButOtherLanes (s t : State) : Prop where
  rest : ∃ ks c1 c0 kp ki : KeyVec,
    t = { s with keyState := ks, ct1 := c1, ct0 := c0, keyPress := kp, keyin := ki }
  lane : laneOf t Config.keyBit = laneOf s Config.keyBit
  line : buttonLine t.keyin = buttonLine s.keyin

/-- The operand bits above the shape's width, which must be 0 (R81): eight for shapes `K` and `8`, none
for `T`, fourteen for `2`, all for `0`. -/
def aboveOperand (op : BitVec 4) : BitVec 16 :=
  match op.toNat with
  | 0x1 | 0x5 | 0x8 => 0xFF00#16
  | 0x6 => 0x0000#16
  | 0x9 => 0xFFFC#16
  | _ => 0xFFFF#16

/-- The fourteen pairs `(PAT, DIR)` after successive ticks of the Sweep cycle (R103). -/
def sweepCycle : List (Pattern × Direction) :=
  [(0x02#8, .ascending), (0x04#8, .ascending), (0x08#8, .ascending), (0x10#8, .ascending),
    (0x20#8, .ascending), (0x40#8, .ascending), (0x80#8, .descending), (0x40#8, .descending),
    (0x20#8, .descending), (0x10#8, .descending), (0x08#8, .descending), (0x04#8, .descending),
    (0x02#8, .descending), (0x01#8, .ascending)]

/-- The events of an input held at the given levels, one sample of each (R127). -/
def sampledLevels (vs : List KeyVec) : List Instr := vs.flatMap fun v => [.pin v, .sample]

/-- The foreground has a debounced press of the button to act on (R190). -/
def pressPending (s : State) : Bool := s.keyPress.getLsbD Config.keyBit

end Sys2Proof.Safety
end

