-- ==== Sys2Proof/Certificates/Slice0/Obligations.lean ====
section
/-!
DEFINITION. The statements for the provers. Where a statement is about one instruction its next state
is written out as a record update, so it says at once what the instruction writes and that every
other register, and each of the model's own items, is unchanged. The block has no memory (R60).
-/

open Sys2Proof Machine Safety

/-! ### Encoding and decoding -/

/-- Decoding an encoded well-formed instruction gives it back, as a word and as stored bytes. -/
def Obligations.DecodeOfEncode : Prop :=
  ∀ i : Instr, i.wellFormed = true →
    decode .unit (encode i) = .ok i ∧
    ∀ rest : List Byte, decodeBytes .unit (encodeBytes i ++ rest) = .ok (i, rest)

/-- Every word that decodes is the encoding of the well-formed instruction it decodes to, so no two
words decode to one instruction. -/
def Obligations.EncodeOfDecode : Prop :=
  ∀ (lvl : TraceLevel) (w : EventWord) (i : Instr), decode lvl w = .ok i →
    i.wellFormed = true ∧ encode i = w

/-- The decoding algorithm of R87, step by step, on every word: which words are refused and why, and
that any other selects the row of its opcode with its operand and runs that row's rule. -/
def Obligations.DecodingAlgorithm : Prop :=
  ∀ (lvl : TraceLevel) (w : EventWord),
    (rsvField w ≠ 0#4 → decode lvl w = .error .reservedBits) ∧
    (rsvField w = 0#4 → opField w = 0xF#4 → decode lvl w = .error .reservedOp) ∧
    (rsvField w = 0#4 → opField w ≠ 0xF#4 → immField w &&& aboveOperand (opField w) ≠ 0#16 →
      decode lvl w = .error .reservedBits) ∧
    (rsvField w = 0#4 → opField w = 0x6#4 → immField w = 0#16 → decode lvl w = .error .armRange) ∧
    (rsvField w = 0#4 → opField w ≠ 0xF#4 → immField w &&& aboveOperand (opField w) = 0#16 →
      ¬(opField w = 0x6#4 ∧ immField w = 0#16) →
      ∃ i : Instr, i.opcode = opField w ∧ i.operand = immField w ∧ decode .unit w = .ok i ∧
        decode .top w = (if (opField w).toNat < 5 then .ok i else .error .internalAtTop) ∧
        ∀ (s : State) (rest : List EventWord), s.trace = w :: rest →
          s.level = .unit ∨ (opField w).toNat < 5 → step s = exec i { s with trace := rest })

/-- Words written out from R82's opcode map decode to the instructions they stand for. -/
def Obligations.MapWordsDecode : Prop :=
  decode .top 0x000000#24 = .ok .reset ∧
  decode .top 0x1000FE#24 = .ok (.pin 0xFE#8) ∧
  decode .top 0x200000#24 = .ok .sample ∧
  decode .top 0x300000#24 = .ok .tclk ∧
  decode .top 0x400000#24 = .ok .fg ∧
  decode .unit 0x500001#24 = .ok (.pollclr 0x01#8) ∧
  decode .unit 0x60FFFF#24 = .ok (.arm 0xFFFF#16) ∧
  decode .unit 0x8000AA#24 = .ok (.write 0xAA#8) ∧
  decode .unit 0x900003#24 = .ok (.enter .suspended) ∧
  decodeBytes .top [0x10#8, 0x00#8, 0xFE#8] = .ok (.pin 0xFE#8, [])

/-! ### The step -/

/-- A step takes the next word of the trace and runs exactly the instruction it decodes to; a word
the decoder refuses is refused by the same name and gives no next state. -/
def Obligations.StepRunsNextEvent : Prop :=
  ∀ (s : State) (w : EventWord) (rest : List EventWord), s.trace = w :: rest →
    (∀ i, decode s.level w = .ok i → step s = exec i { s with trace := rest }) ∧
    (∀ r, decode s.level w = .error r → step s = .refused (refusalOf r))

/-- With no event waiting a step changes nothing. The model's own choice: log entry 4. -/
def Obligations.StepWithoutEvent : Prop :=
  ∀ s : State, s.trace = [] → step s = .next s

/-- The composed block accepts class `E` words only; a class `I` word is refused in a top-level trace
and runs its row's rule in a unit-level one. -/
def Obligations.InternalOperationsRefusedAtTop : Prop :=
  ∀ (s : State) (w : EventWord) (rest : List EventWord) (i : Instr), s.trace = w :: rest →
    decode .unit w = .ok i →
    (i.eventClass = .external ↔
      i = .reset ∨ (∃ v, i = .pin v) ∨ i = .sample ∨ i = .tclk ∨ i = .fg) ∧
    (s.level = .top → i.eventClass = .internal → step s = .refused .internalAtTop) ∧
    (s.level = .top → i.eventClass = .external → step s = exec i { s with trace := rest }) ∧
    (s.level = .unit → step s = exec i { s with trace := rest })

/-- Every event and operation answers a next state from every state, and none touches what the
environment will present; so a valid external word always steps. There is no exception. -/
def Obligations.OperationsAreInfallible : Prop :=
  (∀ (i : Instr) (s : State), ∃ t, exec i s = .next t ∧ t.trace = s.trace ∧ t.level = s.level) ∧
  (∀ (s : State) (w : EventWord) (rest : List EventWord) (i : Instr), s.trace = w :: rest →
    decode .top w = .ok i → ∃ t, step s = .next t ∧ t.trace = rest ∧ t.level = s.level)

/-! ### MTMR -/

/-- `ARM p`, and that the decoder refuses `ARM 0`. That the meaning applies R140's four writes for
`p = 0` too, where the spec gives `ARM 0` no meaning, is the model's reading: log entry 9. -/
def Obligations.ArmStartsTimer : Prop :=
  ∀ (p : TimerVal) (s : State),
    exec (.arm p) s = .next { s with ten := true, tcmp := p, tcnt := 0#16 } ∧
    (p ≠ 0#16 → decode .unit (0x600000#24 ||| p.setWidth 24) = .ok (.arm p)) ∧
    (∀ lvl, decode lvl 0x600000#24 = .error .armRange)

/-- `STOP`: idempotent; a stopped timer ignores `TCLK`, and only the rows whose rules run `ARM` start
it again. -/
def Obligations.StopStopsTimer : Prop :=
  decode .unit 0x700000#24 = .ok .stop ∧
  (∀ s t : State, t = { s with ten := false, tcnt := 0#16 } →
    exec .stop s = .next t ∧ exec .stop t = .next t) ∧
  (∀ s : State, s.ten = false → exec .tclk s = .next s) ∧
  ∀ (i : Instr) (s t : State), s.ten = false → exec i s = .next t → t.ten = true →
    t.tcnt = 0#16 ∧ ((∃ p, i = .arm p) ∨ (∃ m, i = .enter m) ∨ i = .ontick ∨ i = .onpress ∨
      i = .fg ∨ i = .reset)

/-- `TCLK`: gated by `TEN` and `HALT`, not by `IE`; a count, or a return to 0 with a tick. -/
def Obligations.TclkCountsAndTicks : Prop :=
  ∀ s : State,
    (s.ten = false ∨ s.halt = true → exec .tclk s = .next s) ∧
    (s.ten = true → s.halt = false → s.tcnt + 1#16 = s.tcmp →
      exec .tclk s = .next { s with tcnt := 0#16, tick := true }) ∧
    (s.ten = true → s.halt = false → s.tcnt + 1#16 ≠ s.tcmp →
      exec .tclk s = .next { s with tcnt := s.tcnt + 1#16 }) ∧
    decode .top 0x300000#24 = .ok .tclk

/-- After `ARM p` with `p` at least 1, `n` counts leave `TCNT = n mod p`; the first tick comes exactly
at the `p`-th count, and a count raises a tick exactly when it completes a multiple of `p`. -/
def Obligations.TicksComeEveryPeriod : Prop :=
  ∀ (p : TimerVal) (s : State), p ≠ 0#16 → s.halt = false →
    ∃ t, exec (.arm p) s = .next t ∧
      ∀ n : Nat, ∃ u, runEvents (List.replicate n .tclk) t = .next u ∧
        u = { t with tcnt := BitVec.ofNat 16 (n % p.toNat), tick := s.tick || decide (p.toNat ≤ n) } ∧
        ∃ v, exec .tclk { u with tick := false } = .next v ∧ v.tick = decide (p.toNat ∣ n + 1)

/-! ### The display driver -/

/-- `WRITE p`: all eight lines at once, in every state. -/
def Obligations.WriteDrivesAllLines : Prop :=
  ∀ (p : Pattern) (s : State),
    exec (.write p) s = .next { s with led := p } ∧
    decode .unit (0x800000#24 ||| p.setWidth 24) = .ok (.write p)

/-! ### DEB -/

/-- `POLLCLR m`: returns the pending presses under `m`, clears exactly those, and a second call
returns 0. Where the returned value is kept is the model's own choice: log entry 6. -/
def Obligations.PollclrReturnsAndClears : Prop :=
  ∀ (m : KeyVec) (s t : State),
    t = { s with keyPress := s.keyPress &&& ~~~(m &&& s.keyPress), result := some (m &&& s.keyPress) } →
    exec (.pollclr m) s = .next t ∧
    exec (.pollclr m) t = .next { t with result := some 0#8 } ∧
    decode .unit (0x500000#24 ||| m.setWidth 24) = .ok (.pollclr m)

/-- `SAMPLE`: a no-op while halted or with interrupts off; else every lane follows R122's rule for one
lane, and nothing but the four debouncer registers changes. -/
def Obligations.SampleUpdatesEveryLane : Prop :=
  decode .top 0x200000#24 = .ok .sample ∧
  ∀ s : State,
    (s.halt = true ∨ s.ie = false → exec .sample s = .next s) ∧
    (s.halt = false → s.ie = true →
      ∃ ks c1 c0 kp : KeyVec, ∃ t : State,
        t = { s with keyState := ks, ct1 := c1, ct0 := c0, keyPress := kp } ∧
        exec .sample s = .next t ∧
        ∀ i < Config.keyW, laneOf t i = laneSample (!s.keyin.getLsbD i) (laneOf s i))

/-- The same sample on whole bit planes: R124's equations, which the spec derives from R122. -/
def Obligations.SampleBitPlaneEquations : Prop :=
  ∀ s : State, s.halt = false → s.ie = true →
    ∃ d tog : KeyVec, d = ~~~s.keyin ^^^ s.keyState ∧ tog = d &&& s.ct1 ∧
      exec .sample s = .next { s with
        keyState := s.keyState ^^^ tog
        ct1 := d &&& ~~~s.ct1 &&& s.ct0
        ct0 := d &&& ~~~s.ct1 &&& ~~~s.ct0
        keyPress := s.keyPress ||| (tog &&& ~~~s.keyState) }

/-- From a settled released lane, `n` samples that all read pressed: fewer than three only count, and
a following released sample returns the count to 0; three or more settle the lane as pressed and
latch its press; whatever the other lanes read. -/
def Obligations.DebounceNeedsThreeSamples : Prop :=
  ∀ (s : State) (i : Nat), i < Config.keyW → s.halt = false → s.ie = true → s.wakeEn = false →
    (laneOf s i).settled = false → (laneOf s i).count = 0 →
    ∀ vs : List KeyVec, (∀ v ∈ vs, v.getLsbD i = false) →
      ∃ t, runEvents (sampledLevels vs) s = .next t ∧
        (vs.length < 3 → laneOf t i = { laneOf s i with count := vs.length } ∧
          ∀ v : KeyVec, v.getLsbD i = true →
            ∃ u, runEvents (sampledLevels [v]) t = .next u ∧ laneOf u i = laneOf s i) ∧
        (3 ≤ vs.length → laneOf t i = { settled := true, count := 0, pending := true })

/-- Every external event keeps each lane's count below 3, and sets a pending bit only if it also
settles that lane as pressed. -/
def Obligations.PressesAreLatchedOnlyWhenSettling : Prop :=
  ∀ (e : Instr) (s t : State), e.eventClass = .external → exec e s = .next t →
    (DebInv s → DebInv t) ∧
    ∀ i : Nat, s.keyPress.getLsbD i = false → t.keyPress.getLsbD i = true →
      s.keyState.getLsbD i = false ∧ t.keyState.getLsbD i = true

/-! ### SEQ -/

/-- `ENTER m`: each mode's set-up; for a running mode it is idempotent. -/
def Obligations.EnterSetsUpMode : Prop :=
  (∀ s : State,
    exec (.enter .sweep) s = .next { s with
      pat := 0x01#8, dir := .ascending, ten := true, tcmp := Config.pSweep, tcnt := 0#16 } ∧
    exec (.enter .alternate) s = .next { s with
      led := Config.altMask, ten := true, tcmp := Config.pAlt, tcnt := 0#16 } ∧
    exec (.enter .flash) s = .next { s with
      led := 0xFF#8, ten := true, tcmp := Config.pFlash, tcnt := 0#16 } ∧
    exec (.enter .suspended) s = .next { s with led := 0x00#8, ie := false, fgp := .pd } ∧
    ∀ (m : Mode) (t : State), m ≠ .suspended → exec (.enter m) s = .next t →
      exec (.enter m) t = .next t) ∧
  ∀ m : Mode, decode .unit (0x900000#24 ||| m.code.setWidth 24) = .ok (.enter m)

/-- `ONTICK`: a Sweep step with the flip on the shifted pattern, a toggle, or the post-wake recovery. -/
def Obligations.OntickAdvancesMode : Prop :=
  decode .unit 0xA00000#24 = .ok .ontick ∧
  ∀ s : State,
    (s.mode = .sweep →
      ∃ p, p = (if s.dir = .ascending then s.pat <<< 1 else s.pat >>> 1) ∧
        exec .ontick s = .next { s with
          pat := p, led := p,
          dir := if p = 0x01#8 ∨ p = 0x80#8 then
              (if s.dir = .ascending then .descending else .ascending)
            else s.dir }) ∧
    (s.mode = .alternate ∨ s.mode = .flash → exec .ontick s = .next { s with led := ~~~s.led }) ∧
    (s.mode = .suspended → exec .ontick s = .next { s with
      mode := .sweep, pat := 0x01#8, dir := .ascending, ten := true, tcmp := Config.pSweep,
      tcnt := 0#16 })

/-- From `{0x01, ascending}` in Sweep, tick after tick gives R103's fourteen pairs over and over, `LED`
shows `PAT` after each, and nothing else changes. -/
def Obligations.SweepCyclesInFourteenTicks : Prop :=
  ∀ s : State, s.mode = .sweep → s.pat = 0x01#8 → s.dir = .ascending →
    ∀ n : Nat, ∃ (p : Pattern) (d : Direction),
      runEvents (List.replicate (n + 1) .ontick) s = .next { s with pat := p, dir := d, led := p } ∧
      (p, d) = sweepCycle.getD (n % 14) (0x00#8, .ascending) ∧
      (p, d) ≠ (0x80#8, .ascending) ∧ (p, d) ≠ (0x01#8, .descending)

/-- `ONPRESS`: from each mode, the timer stopped and a pending tick discarded, the next mode entered. -/
def Obligations.OnpressEntersNextMode : Prop :=
  decode .unit 0xB00000#24 = .ok .onpress ∧
  ∀ s : State,
    (s.mode = .sweep → exec .onpress s = .next { s with
      mode := .alternate, led := Config.altMask, ten := true, tcmp := Config.pAlt, tcnt := 0#16,
      tick := false }) ∧
    (s.mode = .alternate → exec .onpress s = .next { s with
      mode := .flash, led := 0xFF#8, ten := true, tcmp := Config.pFlash, tcnt := 0#16,
      tick := false }) ∧
    (s.mode = .flash → exec .onpress s = .next { s with
      mode := .suspended, led := 0x00#8, ten := false, tcnt := 0#16, tick := false,
      ie := false, fgp := .pd }) ∧
    (s.mode = .suspended → exec .onpress s = .next { s with
      mode := .sweep, pat := 0x01#8, dir := .ascending, ten := true, tcmp := Config.pSweep,
      tcnt := 0#16, tick := false })

/-- The transition table of the mode state machine. -/
def Obligations.ModeTransitionTable : Prop :=
  ∀ s : State,
    (∃ t, exec .reset s = .next t ∧ t.mode = .sweep) ∧
    (∃ t, exec .ontick s = .next t ∧
      t.mode = match s.mode with
        | .sweep => .sweep
        | .alternate => .alternate
        | .flash => .flash
        | .suspended => .sweep) ∧
    (∃ t, exec .onpress s = .next t ∧
      t.mode = match s.mode with
        | .sweep => .alternate
        | .alternate => .flash
        | .flash => .suspended
        | .suspended => .sweep)

/-- Any number of presses: `n` `ONPRESS` in a row advance `MODE` by `n` modulo 4, so four return it. -/
def Obligations.PressesCycleWithPeriodFour : Prop :=
  ∀ (n : Nat) (s : State), ∃ t, runEvents (List.replicate n .onpress) s = .next t ∧
    t.mode.code = s.mode.code + BitVec.ofNat 2 n ∧ (n % 4 = 0 → t.mode = s.mode)

/-! ### PWR -/

/-- `PARK`, and that in the settle delay the block is deaf: `SAMPLE` and `TCLK` are no-ops and a change
of the lines only moves `KEYIN`. -/
def Obligations.ParkStartsDeafDelay : Prop :=
  decode .unit 0xC00000#24 = .ok .park ∧
  (∀ s : State, exec .park s = .next { s with ie := false, fgp := .pd }) ∧
  (∀ s : State, Inv s → s.fgp = .pd →
    s.halt = false ∧ s.mode = .suspended ∧ s.led = 0x00#8 ∧ s.ten = false ∧ s.tcnt = 0#16 ∧
    s.tick = false ∧ exec .sample s = .next s ∧ exec .tclk s = .next s ∧
    ∀ v, exec (.pin v) s = .next { s with keyin := v })

/-- `PARKGO`: armed, enabled and halted in one event; the level at arming does not matter, and (with
the instance's `WAKE_EDGE = any`) any later change of the button line wakes. -/
def Obligations.ParkgoArmsAndHalts : Prop :=
  decode .unit 0xD00000#24 = .ok .parkgo ∧
  ∀ s t : State, t = { s with wakeEn := true, ie := true, halt := true, fgp := .pw } →
    exec .parkgo s = .next t ∧ exec .fg t = .next t ∧
    ∀ v : KeyVec, v.getLsbD Config.keyBit ≠ s.keyin.getLsbD Config.keyBit →
      exec (.pin v) t = .next { t with keyin := v, wakeEn := false, halt := false }

/-- `WAKE`: clears `WAKE_EN` and `HALT`, nothing else; the bounces that follow do not fire again; the
foreground, found at `PW`, resumes at its next step; only `PARKGO` arms the watch again, and besides
`RESET` only a `PIN` disarms it. -/
def Obligations.WakeDisarmsWatch : Prop :=
  decode .unit 0xE00000#24 = .ok .wake ∧
  ∀ s t : State, t = { s with wakeEn := false, halt := false } →
    exec .wake s = .next t ∧ (∀ v, exec (.pin v) t = .next { t with keyin := v }) ∧
    (t.fgp = .pw → exec .fg t = .next { t with tick := true, fgp := .pt }) ∧
    (∀ (i : Instr) (u v : State), exec i u = .next v → u.wakeEn = false → v.wakeEn = true →
      i = .parkgo ∨ (i = .fg ∧ u.fgp = .pd)) ∧
    ∀ (e : Instr) (u v : State), e.eventClass = .external → exec e u = .next v →
      u.wakeEn = true → v.wakeEn = false → e = .reset ∨ ∃ k, e = .pin k

/-- `PIN v`: `KEYIN` always moves; the watch fires exactly when armed, enabled and matched, for each of
the three values of `WAKE_EDGE`; the instance's is `any`. -/
def Obligations.PinMovesLinesAndWakes : Prop :=
  (∀ v : KeyVec, decode .top (0x100000#24 ||| v.setWidth 24) = .ok (.pin v)) ∧
  (∀ (v : KeyVec) (s : State), exec (.pin v) s = .next (pinChange .any v s)) ∧
  ∀ (edge : Config.WakeEdge) (v : KeyVec) (s : State) (old new : Bool),
    old = s.keyin.getLsbD Config.keyBit → new = v.getLsbD Config.keyBit →
    ∀ fires : Prop,
      (fires ↔ s.wakeEn = true ∧ s.ie = true ∧
        ((edge = .any ∧ old ≠ new) ∨ (edge = .falling ∧ old = true ∧ new = false) ∨
          (edge = .rising ∧ old = false ∧ new = true))) →
      (fires → pinChange edge v s = { s with keyin := v, wakeEn := false, halt := false }) ∧
      (¬fires → pinChange edge v s = { s with keyin := v })

/-- While halted `FG`, `SAMPLE` and `TCLK` are no-op steps; `PIN` acts as ever and leaves the latch
driving its lines, which under the invariants are dark, with the timer stopped; `RESET` still acts. -/
def Obligations.HaltStopsForegroundAndClocks : Prop :=
  ∀ s : State, s.halt = true →
    exec .fg s = .next s ∧ exec .sample s = .next s ∧ exec .tclk s = .next s ∧
    (Inv s → s.led = 0x00#8 ∧ s.ten = false) ∧
    (∀ v, ∃ t, exec (.pin v) s = .next t ∧ t = pinChange .any v s ∧ t.keyin = v ∧ t.led = s.led) ∧
    (∃ t, exec .reset s = .next t ∧ t.halt = false)

/-- The halt is lifted only by a matching change of the lines while the watch is armed, or by `RESET`;
no other event changes any register but `KEYIN`, and the wake only `WAKE_EN` and `HALT` with it. -/
def Obligations.OnlyWakeOrResetLiftsHalt : Prop :=
  ∀ (e : Instr) (s t : State), e.eventClass = .external → s.halt = true → exec e s = .next t →
    (t.halt = true → ∃ v : KeyVec, t = { s with keyin := v }) ∧
    (t.halt = false →
      e = .reset ∨
      ∃ v, e = .pin v ∧ s.wakeEn = true ∧ s.ie = true ∧
        edgeMatches Config.wakeEdge (s.keyin.getLsbD Config.keyBit) (v.getLsbD Config.keyBit) = true ∧
        t = { s with keyin := v, wakeEn := false, halt := false })

/-- The way from a press in Flash through the halt back to Sweep, in five events: press, settle delay
ended, wake, synthesised tick, recovery. -/
def Obligations.SuspendAndWakeReturnToSweep : Prop :=
  ∀ (s : State) (v : KeyVec), s.mode = .flash → s.fgp = .pk → s.halt = false →
    pressPending s = true → v.getLsbD Config.keyBit ≠ s.keyin.getLsbD Config.keyBit →
    runEvents [.fg, .fg] s = .next { s with
      mode := .suspended, led := 0x00#8, ten := false, tcnt := 0#16, tick := false,
      keyPress := s.keyPress &&& 0xFE#8, wakeEn := true, halt := true, ie := true, fgp := .pw } ∧
    runEvents [.fg, .fg, .pin v, .fg, .fg] s = .next { s with
      mode := .sweep, pat := 0x01#8, dir := .ascending, led := 0x00#8, ten := true,
      tcmp := Config.pSweep, tcnt := 0#16, tick := false, keyPress := s.keyPress &&& 0xFE#8,
      keyin := v, wakeEn := false, halt := false, ie := true, fgp := .pk }

/-! ### The foreground sequencer -/

/-- `FG`: held while halted; else the step of its phase, the called operations run in place. -/
def Obligations.FgStepsItsPhase : Prop :=
  decode .top 0x400000#24 = .ok .fg ∧
  ∀ s : State,
    (s.halt = true → exec .fg s = .next s) ∧
    (s.halt = false → s.fgp = .pt → s.tick = false → exec .fg s = .next { s with fgp := .pk }) ∧
    (s.halt = false → s.fgp = .pt → s.tick = true →
      ∃ t, exec .ontick s = .next t ∧ exec .fg s = .next { t with tick := false, fgp := .pk }) ∧
    (s.halt = false → s.fgp = .pk → pressPending s = false →
      exec .fg s = .next { s with fgp := .pt }) ∧
    (s.halt = false → s.fgp = .pk → pressPending s = true →
      ∃ t, exec .onpress { s with fgp := .pt, keyPress := s.keyPress &&& 0xFE#8 } = .next t ∧
        exec .fg s = .next t) ∧
    (s.halt = false → s.fgp = .pd →
      exec .fg s = .next { s with wakeEn := true, ie := true, halt := true, fgp := .pw }) ∧
    (s.halt = false → s.fgp = .pw → exec .fg s = .next { s with tick := true, fgp := .pt })

/-- A pending press is acted on within two foreground steps while the loop runs: at `PK` by the next
step, at `PT` by the one after it; `MODE` moves on and the press is drained. -/
def Obligations.PendingPressIsActedOn : Prop :=
  ∀ s : State, s.halt = false → pressPending s = true → s.mode ≠ .suspended →
    (s.fgp = .pk → ∃ t, runEvents [.fg] s = .next t ∧ t.mode = nextMode s.mode ∧
      pressPending t = false) ∧
    (s.fgp = .pt → ∃ t, runEvents [.fg, .fg] s = .next t ∧ t.mode = nextMode s.mode ∧
      pressPending t = false)

/-- A raised tick stays until the foreground consumes it or a press discards it, and a pending press
of the button stays until the foreground drains it; `RESET` clears both. -/
def Obligations.FlagsPersistUntilConsumed : Prop :=
  ∀ (e : Instr) (s t : State), e.eventClass = .external → exec e s = .next t →
    (s.tick = true → t.tick = false →
      e = .reset ∨ (e = .fg ∧ s.halt = false ∧
        (s.fgp = .pt ∨ (s.fgp = .pk ∧ pressPending s = true)))) ∧
    (pressPending s = true → pressPending t = false →
      e = .reset ∨ (e = .fg ∧ s.halt = false ∧ s.fgp = .pk))

/-! ### Interrupts and ownership -/

/-- What each handler may touch, and that it only raises (or, for the wake, clears) its flags. -/
def Obligations.HandlersTouchOnlyTheirRegisters : Prop :=
  (∀ s : State, ∃ ks c1 c0 kp : KeyVec,
    exec .sample s = .next { s with keyState := ks, ct1 := c1, ct0 := c0, keyPress := kp } ∧
    s.keyPress &&& ~~~kp = 0#8) ∧
  (∀ s : State, ∃ (n : TimerVal) (k : Bool),
    exec .tclk s = .next { s with tcnt := n, tick := k } ∧ (s.tick = true → k = true)) ∧
  (∀ s : State, exec .wake s = .next { s with wakeEn := false, halt := false })

/-- Among the external events only `FG` and `RESET` write what SEQ owns, the LED latch, the timer's
enable and threshold, and the interrupt enable; and `MODE` moves only by a press to the next mode or by the
post-wake recovery to Sweep. -/
def Obligations.OnlyForegroundChangesMode : Prop :=
  ∀ (e : Instr) (s t : State), e.eventClass = .external → exec e s = .next t → e ≠ .reset →
    (e ≠ .fg → t.mode = s.mode ∧ t.pat = s.pat ∧ t.dir = s.dir ∧ t.led = s.led ∧ t.fgp = s.fgp ∧
      t.ten = s.ten ∧ t.tcmp = s.tcmp ∧ t.ie = s.ie) ∧
    (t.mode ≠ s.mode →
      (s.fgp = .pk ∧ pressPending s = true ∧ t.mode = nextMode s.mode) ∨
      (s.fgp = .pt ∧ s.tick = true ∧ s.mode = .suspended ∧ t.mode = .sweep))

/-- `SAMPLE` commutes with `TCLK`, and with `FG` at phases `PT` and `PW`, from every state. -/
def Obligations.SampleCommutes : Prop :=
  ∀ s : State,
    runEvents [.sample, .tclk] s = runEvents [.tclk, .sample] s ∧
    (s.fgp = .pt ∨ s.fgp = .pw → runEvents [.sample, .fg] s = runEvents [.fg, .sample] s)

/-- Lanes other than the button's cannot reach it: from two states that agree on all but those lanes,
the same external event (with `PIN` operands that agree on the button line) leaves two states that
agree on all but those lanes. -/
def Obligations.OtherLanesCannotInterfere : Prop :=
  ∀ (e f : Instr) (s t : State), e.eventClass = .external → SameButOtherLanes s t →
    (e = f ∨ ∃ v w, e = .pin v ∧ f = .pin w ∧ buttonLine v = buttonLine w) →
    ∃ s' t', exec e s = .next s' ∧ exec f t = .next t' ∧ SameButOtherLanes s' t'

/-! ### Reset, invariants, power states -/

/-- `RESET`: from every state the start state `S0`, `KEYIN` not touched; twice is once. -/
def Obligations.ResetLeavesStartState : Prop :=
  decode .top 0x000000#24 = .ok .reset ∧
  ∀ s t : State,
    t = { s with
      mode := .sweep, pat := 0x01#8, dir := .ascending, led := 0x00#8, ten := true,
      tcmp := Config.pSweep, tcnt := 0#16, tick := false, keyState := 0#8, ct1 := 0#8, ct0 := 0#8,
      keyPress := 0#8, wakeEn := false, halt := false, ie := true, fgp := .pt } →
    exec .reset s = .next t ∧ exec .reset t = .next t

/-- The machine's reset state is `S0` in every register the spec gives a start value. (`KEYIN` has none;
its value is log entry 1.) -/
def Obligations.ResetStateIsStartState : Prop :=
  State.reset.mode = .sweep ∧ State.reset.pat = 0x01#8 ∧ State.reset.dir = .ascending ∧
  State.reset.led = 0x00#8 ∧ State.reset.ten = true ∧ State.reset.tcmp = Config.pSweep ∧
  State.reset.tcnt = 0#16 ∧ State.reset.tick = false ∧ State.reset.keyState = 0#8 ∧
  State.reset.ct1 = 0#8 ∧ State.reset.ct0 = 0#8 ∧ State.reset.keyPress = 0#8 ∧
  State.reset.wakeEn = false ∧ State.reset.halt = false ∧ State.reset.ie = true ∧
  State.reset.fgp = .pt

/-- The invariants hold in the start state, whatever levels the lines have and whatever waits. -/
def Obligations.InvHoldsAtReset : Prop :=
  ∀ (v : KeyVec) (ws : List EventWord), Inv { State.reset with keyin := v, trace := ws }

/-- Every step of a top-level trace keeps the invariants of R236 to R238, from every state that has
them, and stays a step of a top-level trace. -/
def Obligations.StepKeepsInv : Prop :=
  ∀ s t : State, s.level = .top → Inv s → step s = .next t → Inv t ∧ t.level = .top

/-- Under the invariants the power states are as every column of R217's table has them: the condition,
what `FG`, `SAMPLE` and `TCLK` do, whether the watch is armed; and each is entered and left only by the
events of the table (and, by R230, by `RESET`). -/
def Obligations.PowerStatesFollowTable : Prop :=
  ∀ s : State, Inv s →
    (powerState s = .run ↔ s.halt = false ∧ (s.fgp = .pt ∨ s.fgp = .pk ∨ s.fgp = .pw)) ∧
    (powerState s = .delay ↔ s.halt = false ∧ s.fgp = .pd ∧ s.ie = false) ∧
    (powerState s = .halted ↔ s.halt = true ∧ s.fgp = .pw ∧ s.wakeEn = true) ∧
    (powerState s = .run →
      (∃ t, exec .fg s = .next t ∧ t.fgp ≠ s.fgp) ∧ exec .sample s = .next (sampleHandler s) ∧
      (s.ten = true → exec .tclk s = .next (if s.tcnt + 1#16 = s.tcmp then timerHandler s
        else { s with tcnt := s.tcnt + 1#16 })) ∧
      (s.ten = false → exec .tclk s = .next s) ∧ s.wakeEn = false) ∧
    (powerState s = .delay →
      exec .fg s = exec .parkgo s ∧ exec .sample s = .next s ∧ s.ten = false ∧
      exec .tclk s = .next s ∧ s.wakeEn = false) ∧
    (powerState s = .halted →
      exec .fg s = .next s ∧ exec .sample s = .next s ∧ exec .tclk s = .next s ∧
      s.wakeEn = true) ∧
    ∀ (e : Instr) (t : State), e.eventClass = .external → exec e s = .next t →
      powerState t ≠ powerState s →
      (powerState s = .run ∧ powerState t = .delay ∧ e = .fg) ∨
      (powerState s = .delay ∧ powerState t = .halted ∧ e = .fg) ∨
      (powerState s = .delay ∧ powerState t = .run ∧ e = .reset) ∨
      (powerState s = .halted ∧ powerState t = .run ∧ (e = .reset ∨ ∃ v, e = .pin v))

/-! ### Port binding and pseudo-operations -/

/-- Simultaneous strobes are taken in R208's fixed order, and `RESET` alone if `rst` is active. That
`PIN` is taken exactly when the lines differ from `KEYIN`, also for a change made while `rst` was
active, is R42 as the model reads it: log entry 14. -/
def Obligations.SimultaneousStrobesInOrder : Prop :=
  ∀ (s : State) (p : PortInputs),
    (p.rst = true → portStep p s = exec .reset s) ∧
    (p.rst = false → ∀ rest, rest = (([(p.sampleStb, Instr.sample), (p.tclkStb, .tclk),
        (p.fgStb, .fg)].filter (·.1)).map (·.2)) →
      (p.keyIn ≠ s.keyin → portStep p s = runEvents (.pin p.keyIn :: rest) s) ∧
      (p.keyIn = s.keyin → portStep p s = runEvents rest s))

/-- The pseudo-operations expand as R89 says, while the trace runs. -/
def Obligations.PseudoOperationsExpand : Prop :=
  (∀ s : State, Line.push.run s = exec (.pin (s.keyin &&& ~~~Config.keyMask)) s) ∧
  (∀ s : State, Line.release.run s = exec (.pin (s.keyin ||| Config.keyMask)) s) ∧
  (∀ s : State, Line.loop.run s = runEvents [.fg, .fg] s) ∧
  (∀ (n : Nat) (l : Line) (s : State), (Line.rep n l).run s = runLines (List.replicate n l) s)
end

