-- ==== Sys2Proof/Laws/Config.lean ====
section
/-!
SUPPORT. What R7 says of the three open periods, whatever their values.
-/

namespace Sys2Proof.Config

/-- Every admitted period lies in 1 to `2^TMR_W - 1` (R7). -/
theorem periodOf_toNat (n : Fin 65535) : (periodOf n).toNat = n.val + 1 := by
  have := n.isLt
  simp only [periodOf, BitVec.toNat_ofNat]
  omega

theorem periodOf_pos (n : Fin 65535) : 0 < (periodOf n).toNat := by
  rw [periodOf_toNat]; omega

theorem pSweep_pos : 0 < pSweep.toNat := periodOf_pos _

theorem pAlt_pos : 0 < pAlt.toNat := periodOf_pos _

theorem pFlash_pos : 0 < pFlash.toNat := periodOf_pos _

/-- Every period of the range is admitted by some value of the free constant. -/
theorem periodOf_surjective (p : TimerVal) (hp : 0 < p.toNat) : ∃ n, periodOf n = p := by
  refine ⟨⟨p.toNat - 1, by have := p.isLt; omega⟩, ?_⟩
  apply BitVec.eq_of_toNat_eq
  rw [periodOf_toNat]
  simp only
  omega

end Sys2Proof.Config
end

