-- ==== Sys2Proof/Laws/Decode.lean ====
section
/-!
SUPPORT. The bits of a word that the encoder builds, its fields read back, and the bytes of a word
read back (R80).
-/

namespace Sys2Proof

/-- Every bit of an event word: the operand field, the reserved zeros, the opcode. -/
theorem getLsbD_eventWord (op : BitVec 4) (imm : BitVec 16) (k : Nat) :
    (eventWord op imm).getLsbD k =
      if k < 16 then imm.getLsbD k else if k < 20 then false else op.getLsbD (k - 20) := by
  have outer := BitVec.getLsbD_append (x := op) (y := 0#4 ++ imm) (i := k)
  have inner := BitVec.getLsbD_append (x := 0#4) (y := imm) (i := k)
  refine outer.trans ?_
  rw [inner]
  by_cases h1 : k < 16
  · have h2 : k < 4 + 16 := by omega
    simp [h1, h2]
  · by_cases h2 : k < 4 + 16
    · simp [h1, h2]
    · simp [h1, h2]

/-- Every bit of a word read from three bytes: the first byte is the most significant. -/
theorem getLsbD_wordOfBytes (hi mid lo : Byte) (k : Nat) :
    (wordOfBytes hi mid lo).getLsbD k =
      if k < 8 then lo.getLsbD k else if k < 16 then mid.getLsbD (k - 8) else hi.getLsbD (k - 16) := by
  have outer := BitVec.getLsbD_append (x := hi) (y := mid ++ lo) (i := k)
  have inner := BitVec.getLsbD_append (x := mid) (y := lo) (i := k)
  refine outer.trans ?_
  rw [inner]
  by_cases h1 : k < 8
  · have h2 : k < 8 + 8 := by omega
    simp [h1, h2]
  · by_cases h2 : k < 8 + 8
    · simp [h1, h2]
    · simp [h1, h2]

@[simp] theorem opField_eventWord (op : BitVec 4) (imm : BitVec 16) :
    opField (eventWord op imm) = op := by
  apply BitVec.eq_of_getLsbD_eq
  intro i hi
  have h1 : ¬20 + i < 16 := by omega
  have h2 : ¬20 + i < 20 := by omega
  simp [opField, getLsbD_eventWord, hi, h1]

@[simp] theorem rsvField_eventWord (op : BitVec 4) (imm : BitVec 16) :
    rsvField (eventWord op imm) = 0#4 := by
  apply BitVec.eq_of_getLsbD_eq
  intro i hi
  have h1 : ¬16 + i < 16 := by omega
  have h2 : 16 + i < 20 := by omega
  simp [rsvField, getLsbD_eventWord, hi, h2]

@[simp] theorem immField_eventWord (op : BitVec 4) (imm : BitVec 16) :
    immField (eventWord op imm) = imm := by
  apply BitVec.eq_of_getLsbD_eq
  intro i hi
  simp [immField, getLsbD_eventWord, hi]

/-- A word whose reserved field is 0 is the word of its other two fields. -/
theorem eventWord_of_fields {w : EventWord} (h : rsvField w = 0#4) :
    eventWord (opField w) (immField w) = w := by
  apply BitVec.eq_of_getLsbD_eq
  intro k hk
  rw [getLsbD_eventWord]
  split
  · simp [immField, *]
  · split
    · have hz := congrArg (fun r : BitVec 4 => r.getLsbD (k - 16)) h
      have h4 : k - 16 < 4 := by omega
      have hk16 : 16 + (k - 16) = k := by omega
      simpa [rsvField, BitVec.getLsbD_extractLsb', h4, hk16] using hz.symm
    · have h4 : k - 20 < 4 := by omega
      have hk20 : 20 + (k - 20) = k := by omega
      simp [opField, h4, hk20]

/-- Storing a word and reading its bytes back gives the word. -/
theorem wordOfBytes_of_word (w : EventWord) :
    wordOfBytes (w.extractLsb' 16 8) (w.extractLsb' 8 8) (w.extractLsb' 0 8) = w := by
  apply BitVec.eq_of_getLsbD_eq
  intro k hk
  rw [getLsbD_wordOfBytes]
  split
  · simp [*]
  · split
    · have h8 : k - 8 < 8 := by omega
      have hk8 : 8 + (k - 8) = k := by omega
      simp [h8, hk8]
    · have h8 : k - 16 < 8 := by omega
      have hk16 : 16 + (k - 16) = k := by omega
      simp [h8, hk16]

/-- The byte decoder on a stored word is the word decoder. -/
theorem decodeBytes_bytesOfWord (lvl : TraceLevel) (w : EventWord) (rest : List Byte) :
    decodeBytes lvl (bytesOfWord w ++ rest) =
      match decode lvl w with
      | .ok i => .ok (i, rest)
      | .error r => .error (.word r) := by
  cases h : decode lvl w <;> simp [bytesOfWord, decodeBytes, wordOfBytes_of_word, h]

@[simp] theorem modeOfCode_code (m : Mode) : modeOfCode m.code = m := by cases m <;> rfl

end Sys2Proof
end

