-- ==== Sys2Proof/Laws/State.lean ====
section
/-!
SUPPORT. One lemma per field for each straight-line operation on the state, true by `rfl`, so that no
later proof unfolds a record update.
-/

namespace Sys2Proof.Machine

@[simp] theorem armTimer_mode (p : TimerVal) (s : State) : (armTimer p s).mode = s.mode := rfl
@[simp] theorem armTimer_pat (p : TimerVal) (s : State) : (armTimer p s).pat = s.pat := rfl
@[simp] theorem armTimer_dir (p : TimerVal) (s : State) : (armTimer p s).dir = s.dir := rfl
@[simp] theorem armTimer_led (p : TimerVal) (s : State) : (armTimer p s).led = s.led := rfl
@[simp] theorem armTimer_ten (p : TimerVal) (s : State) : (armTimer p s).ten = true := rfl
@[simp] theorem armTimer_tcmp (p : TimerVal) (s : State) : (armTimer p s).tcmp = p := rfl
@[simp] theorem armTimer_tcnt (p : TimerVal) (s : State) : (armTimer p s).tcnt = 0#16 := rfl
@[simp] theorem armTimer_tick (p : TimerVal) (s : State) : (armTimer p s).tick = s.tick := rfl
@[simp] theorem armTimer_keyState (p : TimerVal) (s : State) : (armTimer p s).keyState = s.keyState := rfl
@[simp] theorem armTimer_ct1 (p : TimerVal) (s : State) : (armTimer p s).ct1 = s.ct1 := rfl
@[simp] theorem armTimer_ct0 (p : TimerVal) (s : State) : (armTimer p s).ct0 = s.ct0 := rfl
@[simp] theorem armTimer_keyPress (p : TimerVal) (s : State) : (armTimer p s).keyPress = s.keyPress := rfl
@[simp] theorem armTimer_keyin (p : TimerVal) (s : State) : (armTimer p s).keyin = s.keyin := rfl
@[simp] theorem armTimer_wakeEn (p : TimerVal) (s : State) : (armTimer p s).wakeEn = s.wakeEn := rfl
@[simp] theorem armTimer_halt (p : TimerVal) (s : State) : (armTimer p s).halt = s.halt := rfl
@[simp] theorem armTimer_ie (p : TimerVal) (s : State) : (armTimer p s).ie = s.ie := rfl
@[simp] theorem armTimer_fgp (p : TimerVal) (s : State) : (armTimer p s).fgp = s.fgp := rfl
@[simp] theorem armTimer_level (p : TimerVal) (s : State) : (armTimer p s).level = s.level := rfl
@[simp] theorem armTimer_trace (p : TimerVal) (s : State) : (armTimer p s).trace = s.trace := rfl
@[simp] theorem armTimer_result (p : TimerVal) (s : State) : (armTimer p s).result = s.result := rfl

@[simp] theorem stopTimer_mode (s : State) : (stopTimer s).mode = s.mode := rfl
@[simp] theorem stopTimer_pat (s : State) : (stopTimer s).pat = s.pat := rfl
@[simp] theorem stopTimer_dir (s : State) : (stopTimer s).dir = s.dir := rfl
@[simp] theorem stopTimer_led (s : State) : (stopTimer s).led = s.led := rfl
@[simp] theorem stopTimer_ten (s : State) : (stopTimer s).ten = false := rfl
@[simp] theorem stopTimer_tcmp (s : State) : (stopTimer s).tcmp = s.tcmp := rfl
@[simp] theorem stopTimer_tcnt (s : State) : (stopTimer s).tcnt = 0#16 := rfl
@[simp] theorem stopTimer_tick (s : State) : (stopTimer s).tick = s.tick := rfl
@[simp] theorem stopTimer_keyState (s : State) : (stopTimer s).keyState = s.keyState := rfl
@[simp] theorem stopTimer_ct1 (s : State) : (stopTimer s).ct1 = s.ct1 := rfl
@[simp] theorem stopTimer_ct0 (s : State) : (stopTimer s).ct0 = s.ct0 := rfl
@[simp] theorem stopTimer_keyPress (s : State) : (stopTimer s).keyPress = s.keyPress := rfl
@[simp] theorem stopTimer_keyin (s : State) : (stopTimer s).keyin = s.keyin := rfl
@[simp] theorem stopTimer_wakeEn (s : State) : (stopTimer s).wakeEn = s.wakeEn := rfl
@[simp] theorem stopTimer_halt (s : State) : (stopTimer s).halt = s.halt := rfl
@[simp] theorem stopTimer_ie (s : State) : (stopTimer s).ie = s.ie := rfl
@[simp] theorem stopTimer_fgp (s : State) : (stopTimer s).fgp = s.fgp := rfl
@[simp] theorem stopTimer_level (s : State) : (stopTimer s).level = s.level := rfl
@[simp] theorem stopTimer_trace (s : State) : (stopTimer s).trace = s.trace := rfl
@[simp] theorem stopTimer_result (s : State) : (stopTimer s).result = s.result := rfl

@[simp] theorem writeLed_mode (p : Pattern) (s : State) : (writeLed p s).mode = s.mode := rfl
@[simp] theorem writeLed_pat (p : Pattern) (s : State) : (writeLed p s).pat = s.pat := rfl
@[simp] theorem writeLed_dir (p : Pattern) (s : State) : (writeLed p s).dir = s.dir := rfl
@[simp] theorem writeLed_led (p : Pattern) (s : State) : (writeLed p s).led = p := rfl
@[simp] theorem writeLed_ten (p : Pattern) (s : State) : (writeLed p s).ten = s.ten := rfl
@[simp] theorem writeLed_tcmp (p : Pattern) (s : State) : (writeLed p s).tcmp = s.tcmp := rfl
@[simp] theorem writeLed_tcnt (p : Pattern) (s : State) : (writeLed p s).tcnt = s.tcnt := rfl
@[simp] theorem writeLed_tick (p : Pattern) (s : State) : (writeLed p s).tick = s.tick := rfl
@[simp] theorem writeLed_keyState (p : Pattern) (s : State) : (writeLed p s).keyState = s.keyState := rfl
@[simp] theorem writeLed_ct1 (p : Pattern) (s : State) : (writeLed p s).ct1 = s.ct1 := rfl
@[simp] theorem writeLed_ct0 (p : Pattern) (s : State) : (writeLed p s).ct0 = s.ct0 := rfl
@[simp] theorem writeLed_keyPress (p : Pattern) (s : State) : (writeLed p s).keyPress = s.keyPress := rfl
@[simp] theorem writeLed_keyin (p : Pattern) (s : State) : (writeLed p s).keyin = s.keyin := rfl
@[simp] theorem writeLed_wakeEn (p : Pattern) (s : State) : (writeLed p s).wakeEn = s.wakeEn := rfl
@[simp] theorem writeLed_halt (p : Pattern) (s : State) : (writeLed p s).halt = s.halt := rfl
@[simp] theorem writeLed_ie (p : Pattern) (s : State) : (writeLed p s).ie = s.ie := rfl
@[simp] theorem writeLed_fgp (p : Pattern) (s : State) : (writeLed p s).fgp = s.fgp := rfl
@[simp] theorem writeLed_level (p : Pattern) (s : State) : (writeLed p s).level = s.level := rfl
@[simp] theorem writeLed_trace (p : Pattern) (s : State) : (writeLed p s).trace = s.trace := rfl
@[simp] theorem writeLed_result (p : Pattern) (s : State) : (writeLed p s).result = s.result := rfl

@[simp] theorem parkBlock_mode (s : State) : (parkBlock s).mode = s.mode := rfl
@[simp] theorem parkBlock_pat (s : State) : (parkBlock s).pat = s.pat := rfl
@[simp] theorem parkBlock_dir (s : State) : (parkBlock s).dir = s.dir := rfl
@[simp] theorem parkBlock_led (s : State) : (parkBlock s).led = s.led := rfl
@[simp] theorem parkBlock_ten (s : State) : (parkBlock s).ten = s.ten := rfl
@[simp] theorem parkBlock_tcmp (s : State) : (parkBlock s).tcmp = s.tcmp := rfl
@[simp] theorem parkBlock_tcnt (s : State) : (parkBlock s).tcnt = s.tcnt := rfl
@[simp] theorem parkBlock_tick (s : State) : (parkBlock s).tick = s.tick := rfl
@[simp] theorem parkBlock_keyState (s : State) : (parkBlock s).keyState = s.keyState := rfl
@[simp] theorem parkBlock_ct1 (s : State) : (parkBlock s).ct1 = s.ct1 := rfl
@[simp] theorem parkBlock_ct0 (s : State) : (parkBlock s).ct0 = s.ct0 := rfl
@[simp] theorem parkBlock_keyPress (s : State) : (parkBlock s).keyPress = s.keyPress := rfl
@[simp] theorem parkBlock_keyin (s : State) : (parkBlock s).keyin = s.keyin := rfl
@[simp] theorem parkBlock_wakeEn (s : State) : (parkBlock s).wakeEn = s.wakeEn := rfl
@[simp] theorem parkBlock_halt (s : State) : (parkBlock s).halt = s.halt := rfl
@[simp] theorem parkBlock_ie (s : State) : (parkBlock s).ie = false := rfl
@[simp] theorem parkBlock_fgp (s : State) : (parkBlock s).fgp = .pd := rfl
@[simp] theorem parkBlock_level (s : State) : (parkBlock s).level = s.level := rfl
@[simp] theorem parkBlock_trace (s : State) : (parkBlock s).trace = s.trace := rfl
@[simp] theorem parkBlock_result (s : State) : (parkBlock s).result = s.result := rfl

@[simp] theorem parkGoBlock_mode (s : State) : (parkGoBlock s).mode = s.mode := rfl
@[simp] theorem parkGoBlock_pat (s : State) : (parkGoBlock s).pat = s.pat := rfl
@[simp] theorem parkGoBlock_dir (s : State) : (parkGoBlock s).dir = s.dir := rfl
@[simp] theorem parkGoBlock_led (s : State) : (parkGoBlock s).led = s.led := rfl
@[simp] theorem parkGoBlock_ten (s : State) : (parkGoBlock s).ten = s.ten := rfl
@[simp] theorem parkGoBlock_tcmp (s : State) : (parkGoBlock s).tcmp = s.tcmp := rfl
@[simp] theorem parkGoBlock_tcnt (s : State) : (parkGoBlock s).tcnt = s.tcnt := rfl
@[simp] theorem parkGoBlock_tick (s : State) : (parkGoBlock s).tick = s.tick := rfl
@[simp] theorem parkGoBlock_keyState (s : State) : (parkGoBlock s).keyState = s.keyState := rfl
@[simp] theorem parkGoBlock_ct1 (s : State) : (parkGoBlock s).ct1 = s.ct1 := rfl
@[simp] theorem parkGoBlock_ct0 (s : State) : (parkGoBlock s).ct0 = s.ct0 := rfl
@[simp] theorem parkGoBlock_keyPress (s : State) : (parkGoBlock s).keyPress = s.keyPress := rfl
@[simp] theorem parkGoBlock_keyin (s : State) : (parkGoBlock s).keyin = s.keyin := rfl
@[simp] theorem parkGoBlock_wakeEn (s : State) : (parkGoBlock s).wakeEn = true := rfl
@[simp] theorem parkGoBlock_halt (s : State) : (parkGoBlock s).halt = true := rfl
@[simp] theorem parkGoBlock_ie (s : State) : (parkGoBlock s).ie = true := rfl
@[simp] theorem parkGoBlock_fgp (s : State) : (parkGoBlock s).fgp = .pw := rfl
@[simp] theorem parkGoBlock_level (s : State) : (parkGoBlock s).level = s.level := rfl
@[simp] theorem parkGoBlock_trace (s : State) : (parkGoBlock s).trace = s.trace := rfl
@[simp] theorem parkGoBlock_result (s : State) : (parkGoBlock s).result = s.result := rfl

@[simp] theorem wakeBlock_mode (s : State) : (wakeBlock s).mode = s.mode := rfl
@[simp] theorem wakeBlock_pat (s : State) : (wakeBlock s).pat = s.pat := rfl
@[simp] theorem wakeBlock_dir (s : State) : (wakeBlock s).dir = s.dir := rfl
@[simp] theorem wakeBlock_led (s : State) : (wakeBlock s).led = s.led := rfl
@[simp] theorem wakeBlock_ten (s : State) : (wakeBlock s).ten = s.ten := rfl
@[simp] theorem wakeBlock_tcmp (s : State) : (wakeBlock s).tcmp = s.tcmp := rfl
@[simp] theorem wakeBlock_tcnt (s : State) : (wakeBlock s).tcnt = s.tcnt := rfl
@[simp] theorem wakeBlock_tick (s : State) : (wakeBlock s).tick = s.tick := rfl
@[simp] theorem wakeBlock_keyState (s : State) : (wakeBlock s).keyState = s.keyState := rfl
@[simp] theorem wakeBlock_ct1 (s : State) : (wakeBlock s).ct1 = s.ct1 := rfl
@[simp] theorem wakeBlock_ct0 (s : State) : (wakeBlock s).ct0 = s.ct0 := rfl
@[simp] theorem wakeBlock_keyPress (s : State) : (wakeBlock s).keyPress = s.keyPress := rfl
@[simp] theorem wakeBlock_keyin (s : State) : (wakeBlock s).keyin = s.keyin := rfl
@[simp] theorem wakeBlock_wakeEn (s : State) : (wakeBlock s).wakeEn = false := rfl
@[simp] theorem wakeBlock_halt (s : State) : (wakeBlock s).halt = false := rfl
@[simp] theorem wakeBlock_ie (s : State) : (wakeBlock s).ie = s.ie := rfl
@[simp] theorem wakeBlock_fgp (s : State) : (wakeBlock s).fgp = s.fgp := rfl
@[simp] theorem wakeBlock_level (s : State) : (wakeBlock s).level = s.level := rfl
@[simp] theorem wakeBlock_trace (s : State) : (wakeBlock s).trace = s.trace := rfl
@[simp] theorem wakeBlock_result (s : State) : (wakeBlock s).result = s.result := rfl

@[simp] theorem timerHandler_mode (s : State) : (timerHandler s).mode = s.mode := rfl
@[simp] theorem timerHandler_pat (s : State) : (timerHandler s).pat = s.pat := rfl
@[simp] theorem timerHandler_dir (s : State) : (timerHandler s).dir = s.dir := rfl
@[simp] theorem timerHandler_led (s : State) : (timerHandler s).led = s.led := rfl
@[simp] theorem timerHandler_ten (s : State) : (timerHandler s).ten = s.ten := rfl
@[simp] theorem timerHandler_tcmp (s : State) : (timerHandler s).tcmp = s.tcmp := rfl
@[simp] theorem timerHandler_tcnt (s : State) : (timerHandler s).tcnt = 0#16 := rfl
@[simp] theorem timerHandler_tick (s : State) : (timerHandler s).tick = true := rfl
@[simp] theorem timerHandler_keyState (s : State) : (timerHandler s).keyState = s.keyState := rfl
@[simp] theorem timerHandler_ct1 (s : State) : (timerHandler s).ct1 = s.ct1 := rfl
@[simp] theorem timerHandler_ct0 (s : State) : (timerHandler s).ct0 = s.ct0 := rfl
@[simp] theorem timerHandler_keyPress (s : State) : (timerHandler s).keyPress = s.keyPress := rfl
@[simp] theorem timerHandler_keyin (s : State) : (timerHandler s).keyin = s.keyin := rfl
@[simp] theorem timerHandler_wakeEn (s : State) : (timerHandler s).wakeEn = s.wakeEn := rfl
@[simp] theorem timerHandler_halt (s : State) : (timerHandler s).halt = s.halt := rfl
@[simp] theorem timerHandler_ie (s : State) : (timerHandler s).ie = s.ie := rfl
@[simp] theorem timerHandler_fgp (s : State) : (timerHandler s).fgp = s.fgp := rfl
@[simp] theorem timerHandler_level (s : State) : (timerHandler s).level = s.level := rfl
@[simp] theorem timerHandler_trace (s : State) : (timerHandler s).trace = s.trace := rfl
@[simp] theorem timerHandler_result (s : State) : (timerHandler s).result = s.result := rfl

@[simp] theorem sampleHandler_mode (s : State) : (sampleHandler s).mode = s.mode := rfl
@[simp] theorem sampleHandler_pat (s : State) : (sampleHandler s).pat = s.pat := rfl
@[simp] theorem sampleHandler_dir (s : State) : (sampleHandler s).dir = s.dir := rfl
@[simp] theorem sampleHandler_led (s : State) : (sampleHandler s).led = s.led := rfl
@[simp] theorem sampleHandler_ten (s : State) : (sampleHandler s).ten = s.ten := rfl
@[simp] theorem sampleHandler_tcmp (s : State) : (sampleHandler s).tcmp = s.tcmp := rfl
@[simp] theorem sampleHandler_tcnt (s : State) : (sampleHandler s).tcnt = s.tcnt := rfl
@[simp] theorem sampleHandler_tick (s : State) : (sampleHandler s).tick = s.tick := rfl
@[simp] theorem sampleHandler_keyState (s : State) : (sampleHandler s).keyState = debKeyState s := rfl
@[simp] theorem sampleHandler_ct1 (s : State) : (sampleHandler s).ct1 = debCt1 s := rfl
@[simp] theorem sampleHandler_ct0 (s : State) : (sampleHandler s).ct0 = debCt0 s := rfl
@[simp] theorem sampleHandler_keyPress (s : State) : (sampleHandler s).keyPress = debKeyPress s := rfl
@[simp] theorem sampleHandler_keyin (s : State) : (sampleHandler s).keyin = s.keyin := rfl
@[simp] theorem sampleHandler_wakeEn (s : State) : (sampleHandler s).wakeEn = s.wakeEn := rfl
@[simp] theorem sampleHandler_halt (s : State) : (sampleHandler s).halt = s.halt := rfl
@[simp] theorem sampleHandler_ie (s : State) : (sampleHandler s).ie = s.ie := rfl
@[simp] theorem sampleHandler_fgp (s : State) : (sampleHandler s).fgp = s.fgp := rfl
@[simp] theorem sampleHandler_level (s : State) : (sampleHandler s).level = s.level := rfl
@[simp] theorem sampleHandler_trace (s : State) : (sampleHandler s).trace = s.trace := rfl
@[simp] theorem sampleHandler_result (s : State) : (sampleHandler s).result = s.result := rfl

end Sys2Proof.Machine
end

