-- ==== Sys2Proof/Laws/Ops.lean ====
section
/-!
SUPPORT. For each shared operation that branches, one lemma that says once everything it can do;
provers cite these instead of unfolding the operations.
-/

namespace Sys2Proof.Machine

/-! ### The mode state machine -/

@[simp] theorem enterMode_sweep (s : State) :
    enterMode .sweep s =
      { s with pat := 0x01#8, dir := .ascending, ten := true, tcmp := Config.pSweep, tcnt := 0#16 } :=
  rfl

@[simp] theorem enterMode_alternate (s : State) :
    enterMode .alternate s =
      { s with led := 0xAA#8, ten := true, tcmp := Config.pAlt, tcnt := 0#16 } := rfl

@[simp] theorem enterMode_flash (s : State) :
    enterMode .flash s =
      { s with led := 0xFF#8, ten := true, tcmp := Config.pFlash, tcnt := 0#16 } := rfl

@[simp] theorem enterMode_suspended (s : State) :
    enterMode .suspended s = { s with led := 0x00#8, ie := false, fgp := .pd } := rfl

theorem onTick_sweep {s : State} (h : s.mode = .sweep) : onTick s = sweepTick s := by
  simp [onTick, h]

theorem onTick_toggle {s : State} (h : s.mode = .alternate ∨ s.mode = .flash) :
    onTick s = { s with led := ~~~s.led } := by
  rcases h with h | h <;> simp [onTick, h, writeLed]

theorem onTick_suspended {s : State} (h : s.mode = .suspended) :
    onTick s = enterMode .sweep { s with mode := .sweep } := by simp [onTick, h]

/-- Everything a press can do, by the mode it finds. -/
theorem onPress_cases (s : State) :
    (s.mode = .sweep ∧ onPress s = { s with
        mode := .alternate, led := 0xAA#8, ten := true, tcmp := Config.pAlt, tcnt := 0#16,
        tick := false }) ∨
    (s.mode = .alternate ∧ onPress s = { s with
        mode := .flash, led := 0xFF#8, ten := true, tcmp := Config.pFlash, tcnt := 0#16,
        tick := false }) ∨
    (s.mode = .flash ∧ onPress s = { s with
        mode := .suspended, led := 0x00#8, ten := false, tcnt := 0#16, tick := false,
        ie := false, fgp := .pd }) ∨
    (s.mode = .suspended ∧ onPress s = { s with
        mode := .sweep, pat := 0x01#8, dir := .ascending, ten := true, tcmp := Config.pSweep,
        tcnt := 0#16, tick := false }) := by
  cases h : s.mode <;> simp [onPress, nextMode, h, stopTimer]

/-! ### Interrupts and the events' bodies -/

theorem takeInterrupt_of_open {q : Irq} {s : State} (h : irqOpen q s = true) :
    takeInterrupt q s = irqHandler q s := by simp [takeInterrupt, h]

theorem takeInterrupt_of_closed {q : Irq} {s : State} (h : irqOpen q s = false) :
    takeInterrupt q s = s := by simp [takeInterrupt, h]

/-- Everything a sample can do. -/
theorem takeSample_cases (s : State) :
    ((s.halt = true ∨ s.ie = false) ∧ takeInterrupt .sample s = s) ∨
    (s.halt = false ∧ s.ie = true ∧ takeInterrupt .sample s = sampleHandler s) := by
  cases hh : s.halt <;> cases hi : s.ie <;>
    simp [takeInterrupt, irqOpen, irqHandler, sampleGate, hh, hi]

/-- Everything a count strobe can do. -/
theorem countStrobe_cases (s : State) :
    ((s.ten = false ∨ s.halt = true) ∧ countStrobe s = s) ∨
    (s.ten = true ∧ s.halt = false ∧ s.tcnt + 1#16 = s.tcmp ∧
      countStrobe s = { s with tcnt := 0#16, tick := true }) ∨
    (s.ten = true ∧ s.halt = false ∧ s.tcnt + 1#16 ≠ s.tcmp ∧
      countStrobe s = { s with tcnt := s.tcnt + 1#16 }) := by
  cases ht : s.ten <;> cases hh : s.halt <;> by_cases hc : s.tcnt + 1#16 = s.tcmp <;>
    simp [countStrobe, tclkGate, takeInterrupt, irqOpen, irqHandler, timerHandler, ht, hh, hc]

/-- Everything a change of the lines can do. -/
theorem pinChange_cases (e : Config.WakeEdge) (v : KeyVec) (s : State) :
    (s.wakeEn = true ∧ s.ie = true ∧ edgeMatches e (buttonLine s.keyin) (buttonLine v) = true ∧
      pinChange e v s = { s with keyin := v, wakeEn := false, halt := false }) ∨
    ((s.wakeEn = false ∨ s.ie = false ∨
        edgeMatches e (buttonLine s.keyin) (buttonLine v) = false) ∧
      pinChange e v s = { s with keyin := v }) := by
  cases hw : s.wakeEn <;> cases hi : s.ie <;>
    cases he : edgeMatches e (buttonLine s.keyin) (buttonLine v) <;>
    simp [pinChange, takeInterrupt, irqOpen, irqHandler, wakeGate, wakeBlock, hw, hi, he]

/-- Everything a foreground step can do, by halt, phase, tick and pending press. -/
theorem foregroundStep_cases (s : State) :
    (s.halt = true ∧ foregroundStep s = s) ∨
    (s.halt = false ∧ s.fgp = .pt ∧ s.tick = false ∧
      foregroundStep s = { s with fgp := .pk }) ∨
    (s.halt = false ∧ s.fgp = .pt ∧ s.tick = true ∧
      foregroundStep s = { onTick s with tick := false, fgp := .pk }) ∨
    (s.halt = false ∧ s.fgp = .pk ∧ (pollClear Config.keyMask s).1 = 0#8 ∧
      foregroundStep s = (pollClear Config.keyMask { s with fgp := .pt }).2) ∨
    (s.halt = false ∧ s.fgp = .pk ∧ (pollClear Config.keyMask s).1 ≠ 0#8 ∧
      foregroundStep s = onPress (pollClear Config.keyMask { s with fgp := .pt }).2) ∨
    (s.halt = false ∧ s.fgp = .pd ∧ foregroundStep s = parkGoBlock s) ∨
    (s.halt = false ∧ s.fgp = .pw ∧
      foregroundStep s = { s with tick := true, fgp := .pt }) := by
  cases hh : s.halt <;> cases hf : s.fgp <;> cases ht : s.tick <;>
    by_cases hp : (pollClear Config.keyMask s).1 = 0#8 <;>
    simp_all [foregroundStep, pollClear]

/-- The state `RESET` leaves (R230). -/
theorem resetBlock_eq (s : State) :
    resetBlock s = { State.reset with
      keyin := s.keyin, level := s.level, trace := s.trace, result := s.result } := rfl

/-! ### Runs of events -/

@[simp] theorem andThen_next (s : State) (f : State → Result) : andThen (.next s) f = f s := rfl

@[simp] theorem runEvents_nil (s : State) : runEvents [] s = .next s := rfl

@[simp] theorem runEvents_cons (i : Instr) (is : List Instr) (s : State) :
    runEvents (i :: is) s = andThen (exec i s) (runEvents is) := rfl

theorem andThen_assoc (o : Result) (f g : State → Result) :
    andThen (andThen o f) g = andThen o fun s => andThen (f s) g := by
  cases o <;> rfl

theorem runEvents_append (is js : List Instr) (s : State) :
    runEvents (is ++ js) s = andThen (runEvents is s) (runEvents js) := by
  induction is generalizing s with
  | nil => rfl
  | cons i is ih =>
    rw [List.cons_append, runEvents_cons, runEvents_cons, andThen_assoc]
    congr 1
    funext t
    exact ih t

end Sys2Proof.Machine
end

