-- ==== Sys2Proof/Laws/PerInstr.lean ====
section
/-!
SUPPORT. The family EncodedFields: what the word of every instruction holds in its opcode and
reserved fields (R80, R82), one lemma per constructor.
-/

namespace Sys2Proof.Laws.EncodedFields

/-- The word holds the instruction's opcode in `word[23:20]`, and its reserved field is 0. -/
def Statement (i : Instr) : Prop := opField (encode i) = i.opcode ∧ rsvField (encode i) = 0#4

theorem of_any (i : Instr) : Statement i := ⟨opField_eventWord _ _, rsvField_eventWord _ _⟩

theorem reset : Statement .reset := of_any _
theorem pin (v : KeyVec) : Statement (.pin v) := of_any _
theorem sample : Statement .sample := of_any _
theorem tclk : Statement .tclk := of_any _
theorem fg : Statement .fg := of_any _
theorem pollclr (m : KeyVec) : Statement (.pollclr m) := of_any _
theorem arm (p : TimerVal) : Statement (.arm p) := of_any _
theorem stop : Statement .stop := of_any _
theorem write (p : Pattern) : Statement (.write p) := of_any _
theorem enter (m : Mode) : Statement (.enter m) := of_any _
theorem ontick : Statement .ontick := of_any _
theorem onpress : Statement .onpress := of_any _
theorem park : Statement .park := of_any _
theorem parkgo : Statement .parkgo := of_any _
theorem wake : Statement .wake := of_any _

end Sys2Proof.Laws.EncodedFields
end

