-- ==== Sys2Proof/Tests/Slice0.lean ====
section
/-!
SUPPORT. Tests. Expected results are those of the spec's vectors and programs (`94_source_examples.md`,
`95_test_vectors.md`, `96_test_programs.md`), whose ids stand in the comments; the words are written
out from the opcode map (R82). Then one witness for the hypotheses of each statement that has any.
-/

namespace Sys2Proof.Tests

open Sys2Proof Machine Safety

/-- `S0` of the vectors: threshold 4, the vector configuration's `P_SWEEP` (R11). -/
def vc : State := { State.reset with tcmp := 4#16 }

/-- Suspended, as the vectors of tables 2.7 and 2.9 start. -/
def parkedVc : State := { vc with mode := .suspended, ten := false, tcmp := 2#16 }

/-- The settle delay (LP9). -/
def delayVc : State := { parkedVc with ie := false, fgp := .pd }

/-- Halted (LP10). -/
def haltedVc : State := { parkedVc with wakeEn := true, halt := true, fgp := .pw }

/-! ### Well-formedness and decoding -/

/-- `ARM 0` is the one ill-formed term (R84); no smaller and no larger period is refused. -/
theorem test_wellFormed_smoke :
    (Instr.arm 0#16).wellFormed = false ∧ (Instr.arm 1#16).wellFormed = true ∧
    (Instr.arm 0xFFFF#16).wellFormed = true ∧ (Instr.enter .suspended).wellFormed = true := by decide

/-- V1, V2, V3, V5, V8, V9 at both levels. -/
theorem test_decode_external :
    decode .top 0x000000#24 = .ok .reset ∧ decode .unit 0x000000#24 = .ok .reset ∧
    decode .top 0x1000FE#24 = .ok (.pin 0xFE#8) ∧ decode .unit 0x1000FE#24 = .ok (.pin 0xFE#8) ∧
    decode .top 0x100000#24 = .ok (.pin 0x00#8) ∧ decode .top 0x200000#24 = .ok .sample ∧
    decode .top 0x300000#24 = .ok .tclk ∧ decode .top 0x400000#24 = .ok .fg := by decide

/-- V10, V11, V13, V14, V15, V17 and V19 to V23 at unit level. -/
theorem test_decode_internal :
    decode .unit 0x500001#24 = .ok (.pollclr 0x01#8) ∧ decode .unit 0x600006#24 = .ok (.arm 6#16) ∧
    decode .unit 0x60FFFF#24 = .ok (.arm 65535#16) ∧ decode .unit 0x700000#24 = .ok .stop ∧
    decode .unit 0x8000AA#24 = .ok (.write 0xAA#8) ∧
    decode .unit 0x900003#24 = .ok (.enter .suspended) ∧ decode .unit 0xA00000#24 = .ok .ontick ∧
    decode .unit 0xB00000#24 = .ok .onpress ∧ decode .unit 0xC00000#24 = .ok .park ∧
    decode .unit 0xD00000#24 = .ok .parkgo ∧ decode .unit 0xE00000#24 = .ok .wake := by decide

/-- The mode numbers of R83. -/
theorem test_decode_modes :
    decode .unit 0x900000#24 = .ok (.enter .sweep) ∧
    decode .unit 0x900001#24 = .ok (.enter .alternate) ∧
    decode .unit 0x900002#24 = .ok (.enter .flash) := by decide

/-- V10, V11, V15, V17, V23 at top level. -/
theorem test_decode_internal_at_top :
    decode .top 0x500001#24 = .error .internalAtTop ∧
    decode .top 0x600006#24 = .error .internalAtTop ∧
    decode .top 0x8000AA#24 = .error .internalAtTop ∧
    decode .top 0x900003#24 = .error .internalAtTop ∧
    decode .top 0xE00000#24 = .error .internalAtTop := by decide

/-- V4, V6, V7, V12, V16, V18, V24, V25, V26. -/
theorem test_decode_reserved :
    decode .top 0x100100#24 = .error .reservedBits ∧ decode .top 0x200001#24 = .error .reservedBits ∧
    decode .top 0x210000#24 = .error .reservedBits ∧ decode .top 0x600000#24 = .error .armRange ∧
    decode .unit 0x600000#24 = .error .armRange ∧ decode .unit 0x800100#24 = .error .reservedBits ∧
    decode .unit 0x900004#24 = .error .reservedBits ∧
    decode .unit 0xE00001#24 = .error .reservedBits ∧
    decode .unit 0xF00000#24 = .error .reservedOp ∧
    decode .unit 0xFF1234#24 = .error .reservedBits := by decide

/-- Byte storage: word 0x1000FE is stored as 0x10, 0x00, 0xFE. -/
theorem test_bytes :
    encodeBytes (.pin 0xFE#8) = [0x10#8, 0x00#8, 0xFE#8] ∧
    decodeBytes .top [0x10#8, 0x00#8, 0xFE#8, 0x20#8] = .ok (.pin 0xFE#8, [0x20#8]) ∧
    decodeBytes .top [0xF0#8, 0x00#8, 0x00#8] = .error (.word .reservedOp) ∧
    decodeBytes .top [0x20#8, 0x00#8] = .error .truncated := by decide

theorem test_decodeTableWord :
    decodeTableWord 24 0x8000AA = some (.write 0xAA#8) ∧
    decodeTableWord 24 0x400000 = some .fg ∧ decodeTableWord 24 0xF00000 = none := by decide

/-- A row's word placed on the reset state is the next thing the step runs. -/
theorem test_withFetchWord :
    step (State.reset.withFetchWord 24 0xC00000) =
      exec .park { State.reset with level := .unit } ∧
    step (State.reset.withFetchWord 24 0x1000FE) = exec (.pin 0xFE#8) State.reset := ⟨rfl, rfl⟩

/-! ### SEQ -/

/-- EN2. -/
theorem test_enter_sweep_keeps_led :
    exec (.enter .sweep) { vc with pat := 0x10#8, dir := .descending, led := 0x10#8, tcnt := 3#16 } =
      .next { vc with led := 0x10#8, tcmp := Config.pSweep } := rfl

/-- EN6: the timer is not touched. -/
theorem test_enter_suspended :
    exec (.enter .suspended) { parkedVc with led := 0xFF#8 } =
      .next { parkedVc with led := 0x00#8, ie := false, fgp := .pd } := rfl

/-- T2, T4: the end value is shown and the direction flips in the same event. -/
theorem test_ontick_ends :
    exec .ontick { vc with pat := 0x40#8, led := 0x40#8 } =
      .next { vc with pat := 0x80#8, dir := .descending, led := 0x80#8 } ∧
    exec .ontick { vc with pat := 0x02#8, dir := .descending, led := 0x02#8 } =
      .next { vc with pat := 0x01#8, led := 0x01#8 } := ⟨rfl, rfl⟩

/-- T10, T11, T12. -/
theorem test_ontick_other_cases :
    exec .ontick { vc with mode := .alternate, pat := 0x08#8, dir := .descending, led := 0xAA#8 } =
      .next { vc with mode := .alternate, pat := 0x08#8, dir := .descending, led := 0x55#8 } ∧
    exec .ontick { parkedVc with pat := 0x04#8, tick := true } =
      .next { vc with tcmp := Config.pSweep, tick := true } ∧
    exec .ontick { vc with pat := 0x80#8, led := 0x80#8 } =
      .next { vc with pat := 0x00#8, led := 0x00#8 } := ⟨rfl, rfl, rfl⟩

/-- O1. -/
theorem test_onpress_from_sweep :
    exec .onpress { vc with pat := 0x08#8, led := 0x08#8, tcnt := 3#16, tick := true } =
      .next { vc with pat := 0x08#8, mode := .alternate, led := 0xAA#8, tcmp := Config.pAlt } := rfl

/-- O3 and X3-1. -/
theorem test_onpress_from_flash :
    exec .onpress { vc with mode := .flash, tcmp := 2#16, tcnt := 1#16, tick := true } =
      .next delayVc ∧
    exec .onpress { vc with mode := .flash, led := 0xFF#8, tcmp := 2#16, tcnt := 1#16, tick := true } =
      .next delayVc := ⟨rfl, rfl⟩

/-! ### DEB -/

/-- DB7, its last three samples: lanes out of step. -/
theorem test_sample_lanes :
    exec .sample { vc with keyin := 0xFC#8, ct0 := 0x01#8 } =
      .next { vc with keyin := 0xFC#8, ct1 := 0x01#8, ct0 := 0x02#8 } ∧
    exec .sample { vc with keyin := 0xFC#8, ct1 := 0x01#8, ct0 := 0x02#8 } =
      .next { vc with keyin := 0xFC#8, keyState := 0x01#8, ct1 := 0x02#8, keyPress := 0x01#8 } ∧
    exec .sample { vc with keyin := 0xFC#8, keyState := 0x01#8, ct1 := 0x02#8, keyPress := 0x01#8 } =
      .next { vc with keyin := 0xFC#8, keyState := 0x03#8, keyPress := 0x03#8 } := ⟨rfl, rfl, rfl⟩

/-- SG2, SG3, SG4, SG5. -/
theorem test_sample_guards_and_release :
    exec .sample { delayVc with ct0 := 0x01#8, keyin := 0xFE#8 } =
      .next { delayVc with ct0 := 0x01#8, keyin := 0xFE#8 } ∧
    exec .sample { haltedVc with ct0 := 0x01#8, keyin := 0xFE#8 } =
      .next { haltedVc with ct0 := 0x01#8, keyin := 0xFE#8 } ∧
    exec .sample { vc with ct1 := 0x01#8, ct0 := 0x01#8, keyin := 0xFE#8 } =
      .next { vc with keyin := 0xFE#8, keyState := 0x01#8, keyPress := 0x01#8 } ∧
    exec .sample { vc with keyState := 0x01#8, ct1 := 0x01#8 } = .next vc := ⟨rfl, rfl, rfl, rfl⟩

/-- Q1, Q2. -/
theorem test_pollclr :
    exec (.pollclr 0x01#8) { vc with keyPress := 0x05#8 } =
      .next { vc with keyPress := 0x04#8, result := some 0x01#8 } ∧
    exec (.pollclr 0x01#8) { vc with keyPress := 0x04#8 } =
      .next { vc with keyPress := 0x04#8, result := some 0x00#8 } := ⟨rfl, rfl⟩

/-- Q4. -/
theorem test_pollclr_full_mask :
    exec (.pollclr 0xFF#8) { vc with keyPress := 0x05#8 } = .next { vc with result := some 0x05#8 } := rfl

/-! ### MTMR -/

/-- M1. -/
theorem test_arm_keeps_tick :
    exec (.arm 6#16) { vc with tcnt := 3#16, tick := true } =
      .next { vc with tcmp := 6#16, tick := true } := rfl

/-- M5, M7. -/
theorem test_stop :
    exec .stop { vc with mode := .flash, tcmp := 2#16, tcnt := 1#16 } =
      .next { vc with mode := .flash, ten := false, tcmp := 2#16 } ∧
    exec .stop { vc with tcnt := 2#16, tick := true } =
      .next { vc with ten := false, tick := true } := ⟨rfl, rfl⟩

/-- M9, M10, M12. -/
theorem test_tclk_counts :
    exec .tclk { vc with tcnt := 2#16 } = .next { vc with tcnt := 3#16 } ∧
    exec .tclk { vc with tcnt := 3#16 } = .next { vc with tick := true } ∧
    exec .tclk { vc with tcmp := 1#16 } = .next { vc with tcmp := 1#16, tick := true } :=
  ⟨rfl, rfl, rfl⟩

/-- M14, M15, M17. -/
theorem test_tclk_guards_and_wrap :
    exec .tclk { haltedVc with ten := true, tcnt := 1#16 } =
      .next { haltedVc with ten := true, tcnt := 1#16 } ∧
    exec .tclk { vc with tcmp := 0#16, tcnt := 65535#16 } =
      .next { vc with tcmp := 0#16, tick := true } ∧
    exec .tclk { vc with ie := false } = .next { vc with ie := false, tcnt := 1#16 } :=
  ⟨rfl, rfl, rfl⟩

/-! ### PWR, the display driver, the foreground, reset -/

/-- W1, W2. -/
theorem test_park_and_parkgo :
    exec .park parkedVc = .next delayVc ∧ exec .parkgo delayVc = .next haltedVc := ⟨rfl, rfl⟩

/-- W4. -/
theorem test_wake : exec .wake haltedVc = .next { parkedVc with fgp := .pw } := rfl

/-- W5, W6, W8. -/
theorem test_pin_wakes :
    exec (.pin 0xFE#8) haltedVc = .next { parkedVc with fgp := .pw, keyin := 0xFE#8 } ∧
    exec (.pin 0xFF#8) { haltedVc with keyin := 0xFE#8 } = .next { parkedVc with fgp := .pw } ∧
    exec (.pin 0xFD#8) haltedVc = .next { haltedVc with keyin := 0xFD#8 } := ⟨rfl, rfl, rfl⟩

/-- W11, and the note under table 2.7: with `falling` W6 does not wake, with `rising` W5 does not. -/
theorem test_pin_quiet :
    exec (.pin 0xFE#8) delayVc = .next { delayVc with keyin := 0xFE#8 } ∧
    pinChange .falling 0xFF#8 { haltedVc with keyin := 0xFE#8 } = haltedVc ∧
    pinChange .rising 0xFE#8 haltedVc = { haltedVc with keyin := 0xFE#8 } := ⟨rfl, rfl, rfl⟩

/-- WR1, WR5. -/
theorem test_write :
    exec (.write 0x55#8) { vc with mode := .alternate, led := 0xAA#8 } =
      .next { vc with mode := .alternate, led := 0x55#8 } ∧
    exec (.write 0x81#8) haltedVc = .next { haltedVc with led := 0x81#8 } := ⟨rfl, rfl⟩

/-- LP2, LP5, LP11. -/
theorem test_fg_polls :
    exec .fg { vc with tick := true } =
      .next { vc with pat := 0x02#8, led := 0x02#8, fgp := .pk } ∧
    exec .fg { vc with keyPress := 0x04#8, fgp := .pk } = .next { vc with keyPress := 0x04#8 } ∧
    exec .fg { parkedVc with fgp := .pw } = .next { parkedVc with tick := true } := ⟨rfl, rfl, rfl⟩

/-- LP7, LP9, LP12. -/
theorem test_fg_parks_and_recovers :
    exec .fg { vc with
      mode := .flash, led := 0xFF#8, tcmp := 2#16, tcnt := 1#16, keyPress := 0x01#8, fgp := .pk } =
        .next delayVc ∧
    exec .fg delayVc = .next haltedVc ∧
    exec .fg { parkedVc with tick := true } =
      .next { vc with tcmp := Config.pSweep, fgp := .pk } := ⟨rfl, rfl, rfl⟩

/-- Z3. -/
theorem test_reset :
    exec .reset { vc with
      mode := .alternate, pat := 0x08#8, dir := .descending, led := 0x55#8, tcmp := 6#16,
      tcnt := 5#16, tick := true, keyState := 0x01#8, ct0 := 0x01#8, keyPress := 0x01#8,
      keyin := 0xFE#8, fgp := .pk } = .next { State.reset with keyin := 0xFE#8 } := rfl

/-- The printed form of `S0` (R20). -/
theorem test_canonical : vc.canonical = [0, 1, 0, 0, 1, 4, 0, 0, 0, 0, 0, 0, 255, 0, 0, 1, 0] := by
  decide

/-! ### Traces and ports -/

/-- R88: operands in both bases, a mode name, a comment, a blank line, a pseudo-operation. -/
theorem test_parse :
    parseTrace ['P', 'I', 'N', ' ', '0', 'x', 'F', 'E', ' ', ';', 'a', '\n', '\n', 'A', 'R', 'M', ' ', '6']
      = some [.word 0x1000FE#24, .word 0x600006#24] ∧
    parseLine ['E', 'N', 'T', 'E', 'R', ' ', 'F', 'l', 'a', 's', 'h'] =
      some (some (.word 0x900002#24)) ∧
    parseLine ['R', 'E', 'P', ' ', '4', ' ', 'L', 'O', 'O', 'P'] = some (some (.rep 4 .loop)) ∧
    parseLine ['T', 'C', 'L', 'K', ' ', '1'] = none ∧
    parseHexTrace ['1', '0', '0', '0', 'F', 'E', '\n', '2', '0', '0', '0', '0', '0'] =
      some [0x1000FE#24, 0x200000#24] := by decide

/-- R89 on `vc`: `REP 0 X` is nothing, `REP 4 TCLK` then `LOOP` is the first round of program P1. -/
theorem test_pseudo :
    (Line.rep 0 .push).run vc = .next vc ∧
    runLines [.rep 4 (.word 0x300000#24), .loop] vc =
      .next { vc with pat := 0x02#8, led := 0x02#8 } := ⟨rfl, rfl⟩

/-- R208: `rst` alone counts; without it the order is `PIN`, `SAMPLE`, `TCLK`, `FG`. -/
theorem test_port_order :
    portEvents 0xFF#8 ⟨true, 0xFE#8, true, true, true⟩ = [.reset] ∧
    portEvents 0xFF#8 ⟨false, 0xFE#8, true, true, true⟩ = [.pin 0xFE#8, .sample, .tclk, .fg] ∧
    portEvents 0xFF#8 ⟨false, 0xFF#8, false, true, false⟩ = [.tclk] := by decide

/-! ### Witnesses: concrete states and operands that meet a statement's hypotheses -/

/-- `S0` has the invariants, with every line high. -/
theorem inv_reset : Inv State.reset := by
  refine ⟨⟨by decide, by decide, by decide, fun _ => .inr rfl, by decide⟩,
    ⟨by decide, by decide, by decide⟩,
    ⟨by decide, by decide, by decide, by decide⟩, ⟨by decide, fun _ => rfl, fun _ => ?_, by decide⟩,
    by unfold DebInv; decide⟩
  simpa [State.reset] using Config.pSweep_pos

theorem inv_delay : Inv delayVc :=
  ⟨⟨by decide, by decide, by decide, by decide, by decide⟩, ⟨by decide, by decide, by decide⟩,
    ⟨by decide, by decide, by decide, by decide⟩, ⟨by decide, by decide, by decide, by decide⟩,
    by unfold DebInv; decide⟩

theorem inv_halted : Inv haltedVc :=
  ⟨⟨by decide, by decide, by decide, by decide, by decide⟩, ⟨by decide, by decide, by decide⟩,
    ⟨by decide, by decide, by decide, by decide⟩, ⟨by decide, by decide, by decide, by decide⟩,
    by unfold DebInv; decide⟩

/-- Woken, at the return of `park_and_wait` (LP11). -/
def wokenVc : State := { parkedVc with fgp := .pw }

theorem inv_woken : Inv wokenVc :=
  ⟨⟨by decide, by decide, by decide, by decide, by decide⟩, ⟨by decide, by decide, by decide⟩,
    ⟨by decide, by decide, by decide, by decide⟩, ⟨by decide, by decide, by decide, by decide⟩,
    by unfold DebInv; decide⟩

/-- A Flash state at `PK` with a pending press, with the invariants. -/
def pressedFlash : State :=
  { State.reset with mode := .flash, led := 0xFF#8, tcmp := Config.pFlash, keyPress := 0x01#8, fgp := .pk }

theorem inv_pressedFlash : Inv pressedFlash := by
  refine ⟨⟨by decide, by decide, by decide, by decide, by decide⟩, ⟨by decide, by decide, by decide⟩,
    ⟨by decide, by decide, by decide, by decide⟩, ⟨by decide, fun _ => rfl, fun _ => ?_, by decide⟩,
    by unfold DebInv; decide⟩
  simpa [pressedFlash, State.reset] using Config.pFlash_pos

theorem witness_DecodeOfEncode : (Instr.arm 6#16).wellFormed = true := by decide

theorem witness_EncodeOfDecode :
    decode .top 0x1000FE#24 = .ok (.pin 0xFE#8) ∧ decode .unit 0x60FFFF#24 = .ok (.arm 0xFFFF#16) := by
  decide

/-- One word for each clause: V26, V25, V18, V12 and V17. -/
theorem witness_DecodingAlgorithm :
    rsvField 0xFF1234#24 ≠ 0#4 ∧
    (rsvField 0xF00000#24 = 0#4 ∧ opField 0xF00000#24 = 0xF#4) ∧
    (rsvField 0x900004#24 = 0#4 ∧ opField 0x900004#24 ≠ 0xF#4 ∧
      immField 0x900004#24 &&& aboveOperand (opField 0x900004#24) ≠ 0#16) ∧
    (rsvField 0x600000#24 = 0#4 ∧ opField 0x600000#24 = 0x6#4 ∧ immField 0x600000#24 = 0#16) ∧
    (rsvField 0x900003#24 = 0#4 ∧ opField 0x900003#24 ≠ 0xF#4 ∧
      immField 0x900003#24 &&& aboveOperand (opField 0x900003#24) = 0#16 ∧
      ¬(opField 0x900003#24 = 0x6#4 ∧ immField 0x900003#24 = 0#16)) := by decide

/-- A waiting word that decodes, and one that does not. -/
theorem witness_StepRunsNextEvent :
    (State.reset.withFetchWord 24 0x400000).trace = [0x400000#24] ∧
    decode (State.reset.withFetchWord 24 0x400000).level 0x400000#24 = .ok .fg ∧
    (State.reset.withFetchWord 24 0xF00000).trace = [0xF00000#24] ∧
    decode (State.reset.withFetchWord 24 0xF00000).level 0xF00000#24 = .error .reservedOp := by decide

theorem witness_StepWithoutEvent : State.reset.trace = [] := by decide

/-- A class `I` word at each level, and a class `E` word at top level. -/
theorem witness_InternalOperationsRefusedAtTop :
    decode .unit 0xC00000#24 = .ok .park ∧ Instr.park.eventClass = .internal ∧
    ({ State.reset with trace := [0xC00000#24] }).level = .top ∧
    (State.reset.withFetchWord 24 0xC00000).level = .unit ∧
    (State.reset.withFetchWord 24 0xC00000).trace = [0xC00000#24] ∧
    (State.reset.withFetchWord 24 0x200000).level = .top ∧
    (State.reset.withFetchWord 24 0x200000).trace = [0x200000#24] ∧
    decode .unit 0x200000#24 = .ok .sample ∧ Instr.sample.eventClass = .external := by decide

theorem witness_OperationsAreInfallible :
    (State.reset.withFetchWord 24 0x200000).trace = [0x200000#24] ∧
    decode .top 0x200000#24 = .ok .sample := by decide

theorem witness_ArmStartsTimer : (1#16 : TimerVal) ≠ 0#16 ∧ (0xFFFF#16 : TimerVal) ≠ 0#16 := by decide

/-- A stopped timer (M2), which `ARM` starts. -/
theorem witness_StopStopsTimer :
    parkedVc.ten = false ∧ exec (.arm 4#16) parkedVc = .next { vc with mode := .suspended } :=
  ⟨rfl, rfl⟩

/-- The three clauses: M13 and M14; M10; M9 and M16. -/
theorem witness_TclkCountsAndTicks :
    parkedVc.ten = false ∧ ({ haltedVc with ten := true }).halt = true ∧
    (vc.ten = true ∧ vc.halt = false ∧ ({ vc with tcnt := 3#16 }).tcnt + 1#16 = vc.tcmp) ∧
    ({ vc with tcnt := 2#16 }).tcnt + 1#16 ≠ vc.tcmp ∧
    ({ vc with tcmp := 2#16, tcnt := 5#16 }).tcnt + 1#16 ≠ 2#16 := by decide

theorem witness_TicksComeEveryPeriod : (4#16 : TimerVal) ≠ 0#16 ∧ State.reset.halt = false := by decide

/-- Both clauses: the two closed gates, and the open one. -/
theorem witness_SampleUpdatesEveryLane :
    haltedVc.halt = true ∧ delayVc.ie = false ∧ vc.halt = false ∧ vc.ie = true := by decide

/-- The button's lane at `S0`, held for two samples and released (X6a), and held for three (X6b). -/
theorem witness_DebounceNeedsThreeSamples :
    0 < Config.keyW ∧ vc.halt = false ∧ vc.ie = true ∧ vc.wakeEn = false ∧
    (laneOf vc 0).settled = false ∧ (laneOf vc 0).count = 0 ∧
    (∀ v ∈ [0xFE#8, 0xFC#8], v.getLsbD 0 = false) ∧ [0xFE#8, 0xFC#8].length < 3 ∧
    (0xFF#8 : KeyVec).getLsbD 0 = true ∧
    (∀ v ∈ [0xFE#8, 0xFE#8, 0xFE#8], v.getLsbD 0 = false) ∧ 3 ≤ [0xFE#8, 0xFE#8, 0xFE#8].length := by
  decide

/-- The third differing sample of X6b. -/
theorem witness_PressesAreLatchedOnlyWhenSettling :
    Instr.sample.eventClass = .external ∧
    exec .sample { vc with ct1 := 0x01#8, keyin := 0xFE#8 } =
      .next { vc with keyState := 0x01#8, keyPress := 0x01#8, keyin := 0xFE#8 } ∧
    DebInv { vc with ct1 := 0x01#8, keyin := 0xFE#8 } ∧
    vc.keyPress.getLsbD 0 = false ∧ (0x01#8 : KeyVec).getLsbD 0 = true :=
  ⟨rfl, rfl, by unfold DebInv; decide, by decide, by decide⟩

theorem witness_EnterSetsUpMode :
    Mode.flash ≠ .suspended ∧ exec (.enter .flash) vc =
      .next { vc with led := 0xFF#8, tcmp := Config.pFlash } := ⟨by decide, rfl⟩

/-- The modes of `OntickAdvancesMode` and `OnpressEntersNextMode`, and the start of the sweep. -/
theorem witness_modes :
    State.reset.mode = .sweep ∧ State.reset.pat = 0x01#8 ∧ State.reset.dir = .ascending ∧
    ({ vc with mode := .alternate }).mode = .alternate ∧ pressedFlash.mode = .flash ∧
    parkedVc.mode = .suspended := by decide

theorem witness_ParkStartsDeafDelay : Inv delayVc ∧ delayVc.fgp = .pd := ⟨inv_delay, by decide⟩

/-- W2 and W5: armed with the line high, then the line goes low. -/
theorem witness_ParkgoArmsAndHalts :
    haltedVc = { delayVc with wakeEn := true, ie := true, halt := true, fgp := .pw } ∧
    (0xFE#8 : KeyVec).getLsbD Config.keyBit ≠ delayVc.keyin.getLsbD Config.keyBit := ⟨rfl, by decide⟩

theorem witness_WakeDisarmsWatch :
    ({ parkedVc with fgp := .pw } : State) = { haltedVc with wakeEn := false, halt := false } ∧
    ({ parkedVc with fgp := .pw }).fgp = .pw ∧
    (delayVc.wakeEn = false ∧ exec .fg delayVc = .next haltedVc ∧ haltedVc.wakeEn = true) ∧
    exec (.pin 0xFE#8) haltedVc = .next { parkedVc with fgp := .pw, keyin := 0xFE#8 } :=
  ⟨rfl, rfl, ⟨rfl, rfl, rfl⟩, rfl⟩

/-- The watch's gates are open while halted; a transition for each edge, and for each one that does
not match it. -/
theorem witness_PinMovesLinesAndWakes :
    haltedVc.wakeEn = true ∧ haltedVc.ie = true ∧ delayVc.wakeEn = false ∧
    haltedVc.keyin.getLsbD Config.keyBit = true ∧ (0xFE#8 : KeyVec).getLsbD Config.keyBit = false ∧
    ({ haltedVc with keyin := 0xFE#8 }).keyin.getLsbD Config.keyBit = false ∧
    (0xFF#8 : KeyVec).getLsbD Config.keyBit = true := by decide

theorem witness_HaltStopsForegroundAndClocks : haltedVc.halt = true ∧ Inv haltedVc :=
  ⟨rfl, inv_halted⟩

/-- The wake of W5, `RESET` of Z2, and W8, which does not wake. -/
theorem witness_OnlyWakeOrResetLiftsHalt :
    haltedVc.halt = true ∧
    exec (.pin 0xFE#8) haltedVc =
      .next { haltedVc with keyin := 0xFE#8, wakeEn := false, halt := false } ∧
    exec .reset haltedVc = .next State.reset ∧
    exec (.pin 0xFD#8) haltedVc = .next { haltedVc with keyin := 0xFD#8 } := ⟨rfl, rfl, rfl, rfl⟩

theorem witness_SuspendAndWakeReturnToSweep :
    pressedFlash.mode = .flash ∧ pressedFlash.fgp = .pk ∧ pressedFlash.halt = false ∧
    pressPending pressedFlash = true ∧
    (0xFE#8 : KeyVec).getLsbD Config.keyBit ≠ pressedFlash.keyin.getLsbD Config.keyBit := by decide

/-- One state for each clause: LP10, LP1, LP2, LP5, LP7, LP9, LP11. -/
theorem witness_FgStepsItsPhase :
    haltedVc.halt = true ∧ (vc.halt = false ∧ vc.fgp = .pt ∧ vc.tick = false) ∧
    ({ vc with tick := true }).tick = true ∧
    (({ vc with keyPress := 0x04#8, fgp := .pk }).fgp = .pk ∧
      pressPending { vc with keyPress := 0x04#8, fgp := .pk } = false) ∧
    (pressedFlash.fgp = .pk ∧ pressPending pressedFlash = true) ∧
    (delayVc.halt = false ∧ delayVc.fgp = .pd) ∧
    ({ parkedVc with fgp := .pw }).fgp = .pw := by decide

/-- At `PK`, and at `PT`. -/
theorem witness_PendingPressIsActedOn :
    pressedFlash.halt = false ∧ pressPending pressedFlash = true ∧ pressedFlash.mode ≠ .suspended ∧
    pressedFlash.fgp = .pk ∧ pressPending { vc with keyPress := 0x01#8 } = true ∧
    vc.halt = false ∧ vc.mode ≠ .suspended ∧ vc.fgp = .pt := by decide

/-- A tick consumed at `PT`; a press drained, and the tick discarded, at `PK` (LP8). -/
theorem witness_FlagsPersistUntilConsumed :
    (∃ t, exec .fg { vc with tick := true } = .next t ∧ t.tick = false) ∧
    (∃ t, exec .fg { pressedFlash with tick := true } = .next t ∧ t.tick = false) ∧
    pressPending pressedFlash = true ∧
    (∃ t, exec .fg pressedFlash = .next t ∧ pressPending t = false) :=
  ⟨⟨_, rfl, rfl⟩, ⟨_, rfl, rfl⟩, rfl, ⟨_, rfl, rfl⟩⟩

/-- A press moves the mode on, the recovery moves it to Sweep; `TCLK` is neither `FG` nor `RESET`. -/
theorem witness_OnlyForegroundChangesMode :
    Instr.fg ≠ .reset ∧ Instr.tclk ≠ .fg ∧ Instr.tclk ≠ .reset ∧
    exec .tclk vc = .next { vc with tcnt := 1#16 } ∧
    (∃ t, exec .fg pressedFlash = .next t ∧ t.mode ≠ pressedFlash.mode) ∧
    (∃ t, exec .fg { parkedVc with tick := true } = .next t ∧ t.mode ≠ parkedVc.mode) :=
  ⟨by decide, by decide, by decide, rfl, ⟨_, rfl, by decide⟩, ⟨_, rfl, by decide⟩⟩

theorem witness_SampleCommutes : vc.fgp = .pt ∧ ({ parkedVc with fgp := .pw }).fgp = .pw := by decide

/-- Two states that differ on lane 1, and two `PIN` operands that differ there. -/
theorem witness_OtherLanesCannotInterfere :
    Instr.sample.eventClass = .external ∧
    SameButOtherLanes vc { vc with keyin := 0xFD#8, ct0 := 0x02#8, keyPress := 0x02#8 } ∧
    buttonLine 0xFE#8 = buttonLine 0xFC#8 :=
  ⟨rfl, ⟨⟨_, _, _, _, _, rfl⟩, by decide, by decide⟩, by decide⟩

/-- From `S0` the first word of program P2. -/
theorem witness_StepKeepsInv :
    (State.reset.withFetchWord 24 0x1000FE).level = .top ∧
    Inv (State.reset.withFetchWord 24 0x1000FE) ∧
    step (State.reset.withFetchWord 24 0x1000FE) = .next { State.reset with keyin := 0xFE#8 } := by
  refine ⟨by decide, ?_, rfl⟩
  obtain ⟨⟨a, b, c, d, q⟩, ⟨e, f, g⟩, ⟨h, i, j, k⟩, ⟨l, m, n, o⟩, p⟩ := inv_reset
  exact ⟨⟨a, b, c, d, q⟩, ⟨e, f, g⟩, ⟨h, i, j, k⟩, ⟨l, m, n, o⟩, p⟩

/-- One state for each clause (in RUN with the timer running, and stopped after a wake), and one change of
power state of each kind. -/
theorem witness_PowerStatesFollowTable :
    (Inv State.reset ∧ powerState State.reset = .run ∧ State.reset.ten = true) ∧
    (Inv pressedFlash ∧ ∃ t, exec .fg pressedFlash = .next t ∧
      powerState pressedFlash = .run ∧ powerState t = .delay) ∧
    (Inv delayVc ∧ powerState delayVc = .delay ∧ exec .fg delayVc = .next haltedVc ∧
      powerState haltedVc = .halted) ∧
    (exec .reset delayVc = .next State.reset) ∧
    (Inv haltedVc ∧ ∃ t, exec (.pin 0xFE#8) haltedVc = .next t ∧ powerState t = .run) ∧
    (Inv wokenVc ∧ powerState wokenVc = .run ∧ wokenVc.ten = false) :=
  ⟨⟨inv_reset, rfl, rfl⟩, ⟨inv_pressedFlash, ⟨_, rfl, rfl, rfl⟩⟩, ⟨inv_delay, rfl, rfl, rfl⟩, rfl,
    ⟨inv_halted, ⟨_, rfl, rfl⟩⟩, ⟨inv_woken, rfl, rfl⟩⟩

/-- One instant for each clause. -/
theorem witness_SimultaneousStrobesInOrder :
    (⟨true, 0xFE#8, true, false, true⟩ : PortInputs).rst = true ∧
    (⟨false, 0xFE#8, true, false, true⟩ : PortInputs).rst = false ∧
    (⟨false, 0xFE#8, true, false, true⟩ : PortInputs).keyIn ≠ vc.keyin ∧
    (⟨false, 0xFF#8, true, false, true⟩ : PortInputs).keyIn = vc.keyin := by decide

end Sys2Proof.Tests
end

section
/-!
PROOFS. The step (`00_scope.md` R14, R16; `30_encoding.md` R87): what taking a word from the trace,
presenting it and stepping answer in each case, and the obligations about them.
-/

namespace Sys2Proof.Machine

/-! ### Taking the next word -/

theorem takeWord_of_trace_nil {s : State} (h : s.trace = []) : takeWord s = none := by
  simp [takeWord, h]

theorem takeWord_of_trace_cons {s : State} {w : EventWord} {rest : List EventWord}
    (h : s.trace = w :: rest) : takeWord s = some (w, { s with trace := rest }) := by
  simp [takeWord, h]

/-! ### Presenting a word -/

theorem presentWord_of_decode_ok {s : State} {w : EventWord} {i : Instr}
    (h : decode s.level w = .ok i) : presentWord w s = exec i s := by
  simp [presentWord, h]

theorem presentWord_of_decode_error {s : State} {w : EventWord} {r : Rejection}
    (h : decode s.level w = .error r) : presentWord w s = .refused (refusalOf r) := by
  simp [presentWord, h]

/-! ### The step -/

theorem step_of_trace_nil {s : State} (h : s.trace = []) : step s = .next s := by
  simp [step, takeWord_of_trace_nil h]

theorem step_of_trace_cons {s : State} {w : EventWord} {rest : List EventWord}
    (h : s.trace = w :: rest) : step s = presentWord w { s with trace := rest } := by
  simp [step, takeWord_of_trace_cons h]

/-- The word is decoded at the level of the trace it was taken from: taking it leaves `level`. -/
theorem step_of_decode_ok {s : State} {w : EventWord} {rest : List EventWord} {i : Instr}
    (htrace : s.trace = w :: rest) (hdecode : decode s.level w = .ok i) :
    step s = exec i { s with trace := rest } :=
  (step_of_trace_cons htrace).trans (presentWord_of_decode_ok hdecode)

theorem step_of_decode_error {s : State} {w : EventWord} {rest : List EventWord} {r : Rejection}
    (htrace : s.trace = w :: rest) (hdecode : decode s.level w = .error r) :
    step s = .refused (refusalOf r) :=
  (step_of_trace_cons htrace).trans (presentWord_of_decode_error hdecode)

/-- Settles O5: the two outcomes of presenting the word at the head of the trace. -/
theorem stepRunsNextEvent : Obligations.StepRunsNextEvent := by
  intro s w rest htrace
  exact ⟨fun _ hok => step_of_decode_ok htrace hok,
    fun _ herror => step_of_decode_error htrace herror⟩

/-- Settles O6: with no word to take the step is idle (log entry 4). -/
theorem stepWithoutEvent : Obligations.StepWithoutEvent :=
  fun _ htrace => step_of_trace_nil htrace

end Sys2Proof.Machine
end

section
/-!
PROOFS. Who owns which register (`10_state.md` R28, R39; `60_exceptions.md` R210) and how `MODE` moves
(`41_mode_state_machine.md` R106): what each external event leaves of the registers that the foreground
alone writes, and the two foreground steps that move `MODE`.
-/

namespace Sys2Proof.Machine

open Safety

/-! ### The registers the foreground alone writes -/

/-- `t` has the registers of `s` that, after `RESET`, only `FG` writes: those of SEQ, the LED latch, the
phase, the timer's enable and threshold, and the interrupt enable (R39, R210). -/
def SameForegroundRegisters (s t : State) : Prop :=
  t.mode = s.mode ∧ t.pat = s.pat ∧ t.dir = s.dir ∧ t.led = s.led ∧ t.fgp = s.fgp ∧
    t.ten = s.ten ∧ t.tcmp = s.tcmp ∧ t.ie = s.ie

theorem SameForegroundRegisters.refl (s : State) : SameForegroundRegisters s s :=
  ⟨rfl, rfl, rfl, rfl, rfl, rfl, rfl, rfl⟩

theorem pinChange_sameForegroundRegisters (e : Config.WakeEdge) (v : KeyVec) (s : State) :
    SameForegroundRegisters s (pinChange e v s) := by
  obtain ⟨-, -, -, hwakes⟩ | ⟨-, hquiet⟩ := pinChange_cases e v s
  · rw [hwakes]; exact .refl s
  · rw [hquiet]; exact .refl s

theorem takeSample_sameForegroundRegisters (s : State) :
    SameForegroundRegisters s (takeInterrupt .sample s) := by
  obtain ⟨-, hclosed⟩ | ⟨-, -, hopen⟩ := takeSample_cases s
  · rw [hclosed]; exact .refl s
  · rw [hopen]; exact .refl s

theorem countStrobe_sameForegroundRegisters (s : State) :
    SameForegroundRegisters s (countStrobe s) := by
  obtain ⟨-, hclosed⟩ | ⟨-, -, -, hticks⟩ | ⟨-, -, -, hcounts⟩ := countStrobe_cases s
  · rw [hclosed]; exact .refl s
  · rw [hticks]; exact .refl s
  · rw [hcounts]; exact .refl s

/-- Every external event but `RESET` and `FG` leaves the foreground's registers alone. -/
theorem exec_sameForegroundRegisters {e : Instr} {s t : State} (hext : e.eventClass = .external)
    (hexec : exec e s = .next t) (hreset : e ≠ .reset) (hfg : e ≠ .fg) :
    SameForegroundRegisters s t := by
  cases e with
  | reset => exact absurd rfl hreset
  | fg => exact absurd rfl hfg
  | pin v => cases hexec; exact pinChange_sameForegroundRegisters _ v s
  | sample => cases hexec; exact takeSample_sameForegroundRegisters s
  | tclk => cases hexec; exact countStrobe_sameForegroundRegisters s
  | pollclr | arm | stop | write | enter | ontick | onpress | park | parkgo | wake => cases hext

/-! ### How `MODE` moves -/

/-- The foreground's poll returns 0 exactly when the button has no press pending (R126, R190). -/
theorem pollClear_keyMask_eq_zero_iff (s : State) :
    (pollClear Config.keyMask s).1 = 0#8 ↔ pressPending s = false := by
  have hpolled : (pollClear Config.keyMask s).1 = BitVec.twoPow 8 Config.keyBit &&& s.keyPress := rfl
  rw [hpolled, BitVec.twoPow_and, pressPending]
  cases s.keyPress.getLsbD Config.keyBit <;> decide

theorem onPress_mode (s : State) : (onPress s).mode = nextMode s.mode := by
  obtain ⟨hmode, h⟩ | ⟨hmode, h⟩ | ⟨hmode, h⟩ | ⟨hmode, h⟩ := onPress_cases s <;>
    rw [h, hmode] <;> rfl

/-- A tick moves `MODE` only as the recovery after a wake (R106). -/
theorem onTick_mode (s : State) : (onTick s).mode = if s.mode = .suspended then .sweep else s.mode := by
  cases hmode : s.mode with
  | sweep => rw [onTick_sweep hmode]; exact hmode
  | alternate => rw [onTick_toggle (.inl hmode)]; exact hmode
  | flash => rw [onTick_toggle (.inr hmode)]; exact hmode
  | suspended => rw [onTick_suspended hmode]; rfl

/-- The two foreground steps that move `MODE`: the poll that finds a press, and the recovery tick. -/
theorem foregroundStep_mode_cases {s : State} (hmoved : (foregroundStep s).mode ≠ s.mode) :
    (s.fgp = .pk ∧ pressPending s = true ∧ (foregroundStep s).mode = nextMode s.mode) ∨
    (s.fgp = .pt ∧ s.tick = true ∧ s.mode = .suspended ∧ (foregroundStep s).mode = .sweep) := by
  obtain ⟨-, h⟩ | ⟨-, -, -, h⟩ | ⟨-, hpt, htick, h⟩ | ⟨-, -, -, h⟩ | ⟨-, hpk, hpolled, h⟩ |
    ⟨-, -, h⟩ | ⟨-, -, h⟩ := foregroundStep_cases s <;> rw [h] at hmoved ⊢
  · exact absurd rfl hmoved
  · exact absurd rfl hmoved
  · right
    by_cases hsus : s.mode = .suspended
    · exact ⟨hpt, htick, hsus, by simp [onTick_mode, hsus]⟩
    · exact absurd (by simp [onTick_mode, hsus]) hmoved
  · exact absurd rfl hmoved
  · left
    have hpress : pressPending s = true := by
      rwa [Ne, pollClear_keyMask_eq_zero_iff, Bool.not_eq_false] at hpolled
    exact ⟨hpk, hpress, onPress_mode _⟩
  · exact absurd rfl hmoved
  · exact absurd rfl hmoved

/-- Settles O36: the registers by a case per event, `MODE` by `foregroundStep_mode_cases`. -/
theorem onlyForegroundChangesMode : Obligations.OnlyForegroundChangesMode := by
  intro e s t hext hexec hreset
  have hframe : e ≠ .fg → SameForegroundRegisters s t :=
    exec_sameForegroundRegisters hext hexec hreset
  refine ⟨hframe, fun hmoved => ?_⟩
  by_cases hfg : e = .fg
  · subst hfg
    cases hexec
    exact foregroundStep_mode_cases hmoved
  · obtain ⟨hmode, -⟩ := hframe hfg
    exact absurd hmode hmoved

end Sys2Proof.Machine
end

section
/-!
PROOFS. The port binding (`10_state.md` R42; `60_exceptions.md` R208): which events one instant presents.
-/

namespace Sys2Proof.Machine

theorem portEvents_of_rst {p : PortInputs} (keyin : KeyVec) (h : p.rst = true) :
    portEvents keyin p = [.reset] := by
  simp [portEvents, h]

/-- The events of the strobes of an instant, in R208's order. -/
def strobeEvents (p : PortInputs) : List Instr :=
  eventIf p.sampleStb .sample ++ eventIf p.tclkStb .tclk ++ eventIf p.fgStb .fg

theorem portEvents_of_not_rst {p : PortInputs} (keyin : KeyVec) (h : p.rst = false) :
    portEvents keyin p = eventIf (p.keyIn != keyin) (.pin p.keyIn) ++ strobeEvents p := by
  simp [portEvents, strobeEvents, h]

theorem map_filter_cons_eq_eventIf (active : Bool) (i : Instr) (l : List (Bool × Instr)) :
    (((active, i) :: l).filter (·.1)).map (·.2) = eventIf active i ++ (l.filter (·.1)).map (·.2) := by
  cases active <;> rfl

/-- The strobes' events are the active ones of the list of all three, in its order. -/
theorem strobeEvents_eq_filter (p : PortInputs) :
    strobeEvents p = (([(p.sampleStb, Instr.sample), (p.tclkStb, .tclk),
      (p.fgStb, .fg)].filter (·.1)).map (·.2)) := by
  simp only [map_filter_cons_eq_eventIf, strobeEvents, List.filter_nil, List.map_nil,
    List.append_nil, List.append_assoc]

theorem portStep_of_rst {p : PortInputs} {s : State} (h : p.rst = true) :
    portStep p s = exec .reset s := by
  rw [portStep, portEvents_of_rst _ h]
  rfl

theorem portStep_of_lines_moved {p : PortInputs} {s : State} (h : p.rst = false)
    (hkey : p.keyIn ≠ s.keyin) :
    portStep p s = runEvents (.pin p.keyIn :: strobeEvents p) s := by
  simp [portStep, portEvents_of_not_rst _ h, eventIf, hkey]

theorem portStep_of_lines_still {p : PortInputs} {s : State} (h : p.rst = false)
    (hkey : p.keyIn = s.keyin) : portStep p s = runEvents (strobeEvents p) s := by
  simp [portStep, portEvents_of_not_rst _ h, eventIf, hkey]

/-- Settles O44: the instant's events by `rst` and by whether the lines moved (log entry 14). -/
theorem simultaneousStrobesInOrder : Obligations.SimultaneousStrobesInOrder := by
  intro s p
  refine ⟨portStep_of_rst, ?_⟩
  rintro hrst _ rfl
  rw [← strobeEvents_eq_filter]
  exact ⟨portStep_of_lines_moved hrst, portStep_of_lines_still hrst⟩

end Sys2Proof.Machine
end

section
/-!
PROOFS. What runs past the sampler (`20_memory.md` R70; `60_exceptions.md` R207): an operation that neither
reads nor writes the debouncer, and leaves the lines and the sampler's gate as they are, commutes with
`SAMPLE`.
-/

namespace Sys2Proof.Machine

/-! ### The debouncer's registers -/

/-- `s` with the four registers that `SAMPLE` writes (R39, R122) at the given values. -/
def State.withDebouncer (s : State) (ks c1 c0 kp : KeyVec) : State :=
  { s with keyState := ks, ct1 := c1, ct0 := c0, keyPress := kp }

/-- Beside the debouncer's registers a sample reads only the lines, and it writes nothing else. -/
theorem sampleHandler_withDebouncer {s t : State} (h : t.keyin = s.keyin) :
    sampleHandler (t.withDebouncer s.keyState s.ct1 s.ct0 s.keyPress) =
      t.withDebouncer (debKeyState s) (debCt1 s) (debCt0 s) (debKeyPress s) := by
  simp [State.withDebouncer, sampleHandler, debKeyState, debCt1, debCt0, debKeyPress, debToggle,
    debDiff, h]

/-! ### Operations that pass the sampler -/

/-- At `s` the operation `f` neither reads nor writes the debouncer, and it leaves what else `SAMPLE`
reads: its gate (`HALT`, `IE`) and the lines. -/
structure PassesSampler (f : State → State) (s : State) : Prop where
  blind : ∀ ks c1 c0 kp : KeyVec,
    f (s.withDebouncer ks c1 c0 kp) = (f s).withDebouncer ks c1 c0 kp
  halt : (f s).halt = s.halt
  ie : (f s).ie = s.ie
  keyin : (f s).keyin = s.keyin

namespace PassesSampler

variable {f g : State → State} {s : State}

theorem idle (s : State) : PassesSampler id s := ⟨fun _ _ _ _ => rfl, rfl, rfl, rfl⟩

/-- Only what `f` does at `s`, whatever the debouncer holds, matters. -/
theorem of_eq (hg : PassesSampler g s)
    (heq : ∀ ks c1 c0 kp : KeyVec,
      f (s.withDebouncer ks c1 c0 kp) = g (s.withDebouncer ks c1 c0 kp)) :
    PassesSampler f s := by
  have hs : f s = g s := heq s.keyState s.ct1 s.ct0 s.keyPress
  refine ⟨fun ks c1 c0 kp => ?_, ?_, ?_, ?_⟩
  · rw [heq, hs, hg.blind]
  · rw [hs, hg.halt]
  · rw [hs, hg.ie]
  · rw [hs, hg.keyin]

/-- `blind` at the values the debouncer has: `f` leaves them. -/
theorem eq_withDebouncer (h : PassesSampler f s) :
    f s = (f s).withDebouncer s.keyState s.ct1 s.ct0 s.keyPress :=
  h.blind s.keyState s.ct1 s.ct0 s.keyPress

theorem keyPress (h : PassesSampler f s) : (f s).keyPress = s.keyPress := by
  rw [h.eq_withDebouncer]
  rfl

theorem irqOpen_sample (h : PassesSampler f s) : irqOpen .sample (f s) = irqOpen .sample s := by
  simp [irqOpen, sampleGate, h.halt, h.ie]

theorem sampleHandler_comm (h : PassesSampler f s) :
    sampleHandler (f s) = f (sampleHandler s) :=
  calc sampleHandler (f s)
    _ = sampleHandler ((f s).withDebouncer s.keyState s.ct1 s.ct0 s.keyPress) :=
        congrArg sampleHandler h.eq_withDebouncer
    _ = (f s).withDebouncer (debKeyState s) (debCt1 s) (debCt0 s) (debKeyPress s) :=
        sampleHandler_withDebouncer h.keyin
    _ = f (sampleHandler s) := (h.blind _ _ _ _).symm

theorem takeSample_comm (h : PassesSampler f s) :
    takeInterrupt .sample (f s) = f (takeInterrupt .sample s) := by
  cases hopen : irqOpen .sample s with
  | false =>
    rw [takeInterrupt_of_closed hopen, takeInterrupt_of_closed (h.irqOpen_sample.trans hopen)]
  | true =>
    rw [takeInterrupt_of_open hopen, takeInterrupt_of_open (h.irqOpen_sample.trans hopen)]
    exact h.sampleHandler_comm

theorem runEvents_sample_comm {e : Instr} (h : PassesSampler f s)
    (hexec : ∀ t, exec e t = .next (f t)) :
    runEvents [.sample, e] s = runEvents [e, .sample] s := by
  have hsample : ∀ t, exec .sample t = .next (takeInterrupt .sample t) := fun _ => rfl
  simp [hexec, hsample, h.takeSample_comm]

end PassesSampler

/-! ### `TCLK` passes the sampler -/

theorem countStrobe_of_closed {s : State} (hgate : tclkGate s = false) : countStrobe s = s := by
  simp [countStrobe, hgate]

theorem countStrobe_of_match {s : State} (hgate : tclkGate s = true)
    (hmatch : s.tcnt + 1#16 = s.tcmp) : countStrobe s = timerHandler s := by
  simp [countStrobe, hgate, hmatch, takeInterrupt, irqOpen, irqHandler]

theorem countStrobe_of_no_match {s : State} (hgate : tclkGate s = true)
    (hmatch : s.tcnt + 1#16 ≠ s.tcmp) : countStrobe s = { s with tcnt := s.tcnt + 1#16 } := by
  simp [countStrobe, hgate, hmatch]

theorem countStrobe_passesSampler (s : State) : PassesSampler countStrobe s := by
  cases hgate : tclkGate s with
  | false =>
    exact (PassesSampler.idle s).of_eq fun _ _ _ _ => countStrobe_of_closed hgate
  | true =>
    by_cases hmatch : s.tcnt + 1#16 = s.tcmp
    · have hticks : PassesSampler timerHandler s := ⟨fun _ _ _ _ => rfl, rfl, rfl, rfl⟩
      exact hticks.of_eq fun _ _ _ _ => countStrobe_of_match hgate hmatch
    · have hcounts : PassesSampler (fun t => { t with tcnt := t.tcnt + 1#16 }) s :=
        ⟨fun _ _ _ _ => rfl, rfl, rfl, rfl⟩
      exact hcounts.of_eq fun _ _ _ _ => countStrobe_of_no_match hgate hmatch

/-! ### `FG` at `PT` and at `PW` passes the sampler -/

theorem onTick_passesSampler (s : State) : PassesSampler onTick s := by
  have htoggle : PassesSampler (fun t => { t with led := ~~~t.led }) s :=
    ⟨fun _ _ _ _ => rfl, rfl, rfl, rfl⟩
  cases hmode : s.mode with
  | sweep =>
    have hsweep : PassesSampler sweepTick s := ⟨fun _ _ _ _ => rfl, rfl, rfl, rfl⟩
    exact hsweep.of_eq fun _ _ _ _ => onTick_sweep hmode
  | alternate => exact htoggle.of_eq fun _ _ _ _ => onTick_toggle (.inl hmode)
  | flash => exact htoggle.of_eq fun _ _ _ _ => onTick_toggle (.inr hmode)
  | suspended =>
    have hrecovers : PassesSampler (fun t => enterMode .sweep { t with mode := .sweep }) s :=
      ⟨fun _ _ _ _ => rfl, rfl, rfl, rfl⟩
    exact hrecovers.of_eq fun _ _ _ _ => onTick_suspended hmode

theorem foregroundStep_of_halt {s : State} (hhalt : s.halt = true) : foregroundStep s = s := by
  simp [foregroundStep, hhalt]

theorem foregroundStep_of_pt_quiet {s : State} (hhalt : s.halt = false) (hpt : s.fgp = .pt)
    (htick : s.tick = false) : foregroundStep s = { s with fgp := .pk } := by
  simp [foregroundStep, hhalt, hpt, htick]

theorem foregroundStep_of_pt_tick {s : State} (hhalt : s.halt = false) (hpt : s.fgp = .pt)
    (htick : s.tick = true) :
    foregroundStep s = { onTick s with tick := false, fgp := .pk } := by
  simp [foregroundStep, hhalt, hpt, htick]

theorem foregroundStep_of_pw {s : State} (hhalt : s.halt = false) (hpw : s.fgp = .pw) :
    foregroundStep s = { s with tick := true, fgp := .pt } := by
  simp [foregroundStep, hhalt, hpw]

theorem foregroundStep_passesSampler_of_halt {s : State} (hhalt : s.halt = true) :
    PassesSampler foregroundStep s := by
  exact (PassesSampler.idle s).of_eq fun _ _ _ _ => foregroundStep_of_halt hhalt

theorem foregroundStep_passesSampler_of_pt {s : State} (hhalt : s.halt = false)
    (hpt : s.fgp = .pt) : PassesSampler foregroundStep s := by
  cases htick : s.tick with
  | false =>
    have hquiet : PassesSampler (fun t => { t with fgp := .pk }) s :=
      ⟨fun _ _ _ _ => rfl, rfl, rfl, rfl⟩
    exact hquiet.of_eq fun _ _ _ _ => foregroundStep_of_pt_quiet hhalt hpt htick
  | true =>
    obtain ⟨hblind, hkeepsHalt, hkeepsIe, hkeepsKeyin⟩ := onTick_passesSampler s
    have hticks : PassesSampler (fun t => { onTick t with tick := false, fgp := .pk }) s :=
      ⟨fun ks c1 c0 kp => by rw [hblind]; rfl, hkeepsHalt, hkeepsIe, hkeepsKeyin⟩
    exact hticks.of_eq fun _ _ _ _ => foregroundStep_of_pt_tick hhalt hpt htick

theorem foregroundStep_passesSampler_of_pw {s : State} (hhalt : s.halt = false)
    (hpw : s.fgp = .pw) : PassesSampler foregroundStep s := by
  have hresumes : PassesSampler (fun t => { t with tick := true, fgp := .pt }) s :=
    ⟨fun _ _ _ _ => rfl, rfl, rfl, rfl⟩
  exact hresumes.of_eq fun _ _ _ _ => foregroundStep_of_pw hhalt hpw

theorem foregroundStep_passesSampler {s : State} (hphase : s.fgp = .pt ∨ s.fgp = .pw) :
    PassesSampler foregroundStep s := by
  cases hhalt : s.halt with
  | true => exact foregroundStep_passesSampler_of_halt hhalt
  | false =>
    obtain hpt | hpw := hphase
    · exact foregroundStep_passesSampler_of_pt hhalt hpt
    · exact foregroundStep_passesSampler_of_pw hhalt hpw

/-- Settles O37: `TCLK`, and `FG` at `PT` and at `PW`, pass the sampler. -/
theorem sampleCommutes : Obligations.SampleCommutes := fun s =>
  ⟨(countStrobe_passesSampler s).runEvents_sample_comm fun _ => rfl,
    fun hphase => (foregroundStep_passesSampler hphase).runEvents_sample_comm fun _ => rfl⟩

end Sys2Proof.Machine
end

section
/-!
PROOFS. The one-way flags (`20_memory.md` R69; `10_state.md` R23, R27): the interrupts and the pins only
raise `TICK` and the button's pending bit, and which foreground steps clear them.
-/

namespace Sys2Proof.Machine

open Safety

/-! ### Events that keep the flags -/

/-- A flag raised in `s`, `TICK` or the button's pending bit, is still raised in `t`. -/
structure KeepsRaisedFlags (s t : State) : Prop where
  tick : s.tick = true → t.tick = true
  press : pressPending s = true → pressPending t = true

theorem pinChange_keepsRaisedFlags (e : Config.WakeEdge) (v : KeyVec) (s : State) :
    KeepsRaisedFlags s (pinChange e v s) := by
  obtain ⟨-, -, -, hwakes⟩ | ⟨-, hquiet⟩ := pinChange_cases e v s
  · rw [hwakes]; exact ⟨id, id⟩
  · rw [hquiet]; exact ⟨id, id⟩

/-- R124's `KEY_PRESS` equation only sets bits. -/
theorem pressPending_sampleHandler {s : State} (h : pressPending s = true) :
    pressPending (sampleHandler s) = true := by
  rw [pressPending] at h ⊢
  rw [sampleHandler_keyPress, debKeyPress, BitVec.getLsbD_or, h, Bool.true_or]

theorem takeSample_keepsRaisedFlags (s : State) :
    KeepsRaisedFlags s (takeInterrupt .sample s) := by
  obtain ⟨-, hclosed⟩ | ⟨-, -, hopen⟩ := takeSample_cases s
  · rw [hclosed]; exact ⟨id, id⟩
  · rw [hopen]; exact ⟨id, pressPending_sampleHandler⟩

theorem countStrobe_keepsRaisedFlags (s : State) : KeepsRaisedFlags s (countStrobe s) := by
  obtain ⟨-, hclosed⟩ | ⟨-, -, -, hticks⟩ | ⟨-, -, -, hcounts⟩ := countStrobe_cases s
  · rw [hclosed]; exact ⟨id, id⟩
  · rw [hticks]; exact ⟨fun _ => rfl, id⟩
  · rw [hcounts]; exact ⟨id, id⟩

/-! ### Foreground steps that clear a flag -/

theorem foregroundStep_clears_tick {s : State} (htick : s.tick = true)
    (hcleared : (foregroundStep s).tick = false) :
    s.halt = false ∧ (s.fgp = .pt ∨ (s.fgp = .pk ∧ pressPending s = true)) := by
  have hkept : (foregroundStep s).tick ≠ s.tick := by simp [htick, hcleared]
  obtain ⟨-, h⟩ | ⟨hhalt, hpt, -, -⟩ | ⟨hhalt, hpt, -, -⟩ | ⟨-, -, -, h⟩ | ⟨hhalt, hpk, hpolled, -⟩ |
    ⟨-, -, h⟩ | ⟨-, -, h⟩ := foregroundStep_cases s
  · exact absurd (congrArg State.tick h) hkept
  · exact ⟨hhalt, .inl hpt⟩
  · exact ⟨hhalt, .inl hpt⟩
  · exact absurd (congrArg State.tick h) hkept
  · rw [Ne, pollClear_keyMask_eq_zero_iff, Bool.not_eq_false] at hpolled
    exact ⟨hhalt, .inr ⟨hpk, hpolled⟩⟩
  · exact absurd (congrArg State.tick h) hkept
  · exact absurd ((congrArg State.tick h).trans htick.symm) hkept

/-- Away from the unhalted `PK` the foreground leaves `KEY_PRESS` alone. -/
theorem foregroundStep_changes_keyPress {s : State}
    (hmoved : (foregroundStep s).keyPress ≠ s.keyPress) : s.halt = false ∧ s.fgp = .pk := by
  obtain ⟨-, h⟩ | ⟨-, -, -, h⟩ | ⟨-, -, -, h⟩ | ⟨hhalt, hpk, -, -⟩ | ⟨hhalt, hpk, -, -⟩ |
    ⟨-, -, h⟩ | ⟨-, -, h⟩ := foregroundStep_cases s
  · exact absurd (congrArg State.keyPress h) hmoved
  · exact absurd (congrArg State.keyPress h) hmoved
  · exact absurd ((congrArg State.keyPress h).trans (onTick_passesSampler s).keyPress) hmoved
  · exact ⟨hhalt, hpk⟩
  · exact ⟨hhalt, hpk⟩
  · exact absurd (congrArg State.keyPress h) hmoved
  · exact absurd (congrArg State.keyPress h) hmoved

theorem foregroundStep_clears_press {s : State} (hpress : pressPending s = true)
    (hcleared : pressPending (foregroundStep s) = false) : s.halt = false ∧ s.fgp = .pk := by
  refine foregroundStep_changes_keyPress fun hkept => ?_
  rw [pressPending, hkept] at hcleared
  exact Bool.false_ne_true (hcleared.symm.trans hpress)

/-! ### Every external event -/

theorem exec_keepsRaisedFlags {e : Instr} {s t : State} (hext : e.eventClass = .external)
    (hexec : exec e s = .next t) (hreset : e ≠ .reset) (hfg : e ≠ .fg) : KeepsRaisedFlags s t := by
  cases e with
  | reset => exact absurd rfl hreset
  | fg => exact absurd rfl hfg
  | pin v => cases hexec; exact pinChange_keepsRaisedFlags _ v s
  | sample => cases hexec; exact takeSample_keepsRaisedFlags s
  | tclk => cases hexec; exact countStrobe_keepsRaisedFlags s
  | pollclr | arm | stop | write | enter | ontick | onpress | park | parkgo | wake => cases hext

/-- Settles O34: of `FG` by its phase, and no event but `FG` and `RESET` clears a flag. -/
theorem flagsPersistUntilConsumed : Obligations.FlagsPersistUntilConsumed := by
  intro e s t hext hexec
  by_cases hreset : e = .reset
  · exact ⟨fun _ _ => .inl hreset, fun _ _ => .inl hreset⟩
  by_cases hfg : e = .fg
  · subst hfg
    cases hexec
    exact ⟨fun htick hcleared => .inr ⟨rfl, foregroundStep_clears_tick htick hcleared⟩,
      fun hpress hcleared => .inr ⟨rfl, foregroundStep_clears_press hpress hcleared⟩⟩
  · have hkeeps := exec_keepsRaisedFlags hext hexec hreset hfg
    exact ⟨fun htick hcleared => absurd (hkeeps.tick htick) (by simp [hcleared]),
      fun hpress hcleared => absurd (hkeeps.press hpress) (by simp [hcleared])⟩

end Sys2Proof.Machine
end

section
/-!
PROOFS. The decoder (`30_encoding.md` R81 to R87): which operand fields each shape of R81 takes, what
the opcode map makes of an opcode and an operand, and which word decodes at which level to which
instruction.
-/

namespace Sys2Proof

open Safety

/-! ### Operands in the low bits of a field (R81) -/

/-- With `and_allOnes_shiftLeft_eq_zero_iff` the two spellings of "every bit from `k` up is 0": the
decoder tests a field, `aboveOperand` is a mask. -/
theorem extractLsb'_high_eq_zero_iff {w k n : Nat} (h : k + n = w) (x : BitVec w) :
    x.extractLsb' k n = 0#n ↔ ∀ j, k ≤ j → x.getLsbD j = false := by
  constructor
  · intro hhigh j hkj
    have hbit := congrArg (·.getLsbD (j - k)) hhigh
    by_cases hjw : j < w
    · have hjn : j - k < n := by omega
      simpa [hjn, Nat.add_sub_cancel' hkj] using hbit
    · exact x.getLsbD_of_ge j (by omega)
  · intro hbits
    apply BitVec.eq_of_getLsbD_eq
    intro j hj
    simp [hbits (k + j) (by omega)]

theorem and_allOnes_shiftLeft_eq_zero_iff {w : Nat} (k : Nat) (x : BitVec w) :
    x &&& (BitVec.allOnes w <<< k) = 0#w ↔ ∀ j, k ≤ j → x.getLsbD j = false := by
  constructor
  · intro hmask j hkj
    have hbit := congrArg (·.getLsbD j) hmask
    by_cases hjw : j < w
    · have hjk : j - k < w := by omega
      simpa [hjw, hjk, Nat.not_lt.2 hkj] using hbit
    · exact x.getLsbD_of_ge j (by omega)
  · intro hbits
    apply BitVec.eq_of_getLsbD_eq
    intro j hj
    by_cases hjk : j < k
    · simp [hjk]
    · simp [hbits j (by omega)]

theorem setWidth_extractLsb'_of_high_eq_zero {w k n : Nat} (h : k + n = w) {x : BitVec w}
    (hhigh : x.extractLsb' k n = 0#n) : (x.extractLsb' 0 k).setWidth w = x := by
  apply BitVec.eq_of_getLsbD_eq
  intro j hj
  by_cases hjk : j < k
  · simp [hj, hjk]
  · simp [hjk, (extractLsb'_high_eq_zero_iff h x).1 hhigh j (by omega)]

theorem extractLsb'_high_setWidth {w k n : Nat} (v : BitVec k) :
    (v.setWidth w).extractLsb' k n = 0#n := by
  apply BitVec.eq_of_getLsbD_eq
  intro j hj
  simp

theorem extractLsb'_low_setWidth {w k : Nat} (h : k ≤ w) (v : BitVec k) :
    (v.setWidth w).extractLsb' 0 k = v := by
  rw [BitVec.extractLsb'_setWidth_of_le (by omega), BitVec.extractLsb'_eq_self]

theorem extractLsb'_above_eight_iff (imm : BitVec 16) :
    imm.extractLsb' 8 8 = 0#8 ↔ imm &&& 0xFF00#16 = 0#16 :=
  (extractLsb'_high_eq_zero_iff (n := 8) rfl imm).trans
    (and_allOnes_shiftLeft_eq_zero_iff 8 imm).symm

theorem extractLsb'_above_two_iff (imm : BitVec 16) :
    imm.extractLsb' 2 14 = 0#14 ↔ imm &&& 0xFFFC#16 = 0#16 :=
  (extractLsb'_high_eq_zero_iff (n := 14) rfl imm).trans
    (and_allOnes_shiftLeft_eq_zero_iff 2 imm).symm

theorem code_modeOfCode : ∀ c : BitVec 2, (modeOfCode c).code = c := by decide

/-! ### The shapes of R81 -/

theorem shapeNone_zero (i : Instr) : shapeNone 0#16 i = .ok i := rfl

theorem shapeNone_of_ne {imm : BitVec 16} (i : Instr) (h : imm ≠ 0#16) :
    shapeNone imm i = .error .reservedBits := by
  simp [shapeNone, h]

theorem shapeEight_setWidth (v : BitVec 8) (mk : BitVec 8 → Instr) :
    shapeEight (v.setWidth 16) mk = .ok (mk v) := by
  rw [shapeEight, if_pos (extractLsb'_high_setWidth v), extractLsb'_low_setWidth (by decide)]

theorem shapeEight_of_above {imm : BitVec 16} (mk : BitVec 8 → Instr)
    (h : imm &&& 0xFF00#16 ≠ 0#16) : shapeEight imm mk = .error .reservedBits :=
  if_neg (mt (extractLsb'_above_eight_iff imm).1 h)

theorem exists_setWidth_of_fits_eight {imm : BitVec 16} (h : imm &&& 0xFF00#16 = 0#16) :
    ∃ v : BitVec 8, v.setWidth 16 = imm :=
  ⟨_, setWidth_extractLsb'_of_high_eq_zero rfl ((extractLsb'_above_eight_iff imm).2 h)⟩

theorem shapeMode_code (m : Mode) (mk : Mode → Instr) :
    shapeMode (m.code.setWidth 16) mk = .ok (mk m) := by
  rw [shapeMode, if_pos (extractLsb'_high_setWidth m.code),
    extractLsb'_low_setWidth (by decide), modeOfCode_code]

theorem shapeMode_of_above {imm : BitVec 16} (mk : Mode → Instr)
    (h : imm &&& 0xFFFC#16 ≠ 0#16) : shapeMode imm mk = .error .reservedBits :=
  if_neg (mt (extractLsb'_above_two_iff imm).1 h)

theorem exists_code_of_fits_mode {imm : BitVec 16} (h : imm &&& 0xFFFC#16 = 0#16) :
    ∃ m : Mode, m.code.setWidth 16 = imm := by
  refine ⟨modeOfCode (imm.extractLsb' 0 2), ?_⟩
  rw [code_modeOfCode]
  exact setWidth_extractLsb'_of_high_eq_zero rfl ((extractLsb'_above_two_iff imm).2 h)

theorem shapePeriod_zero (mk : BitVec 16 → Instr) : shapePeriod 0#16 mk = .error .armRange := rfl

theorem shapePeriod_of_ne {p : BitVec 16} (mk : BitVec 16 → Instr) (h : p ≠ 0#16) :
    shapePeriod p mk = .ok (mk p) := by
  simp [shapePeriod, h]

/-! ### The opcode map (R82) -/

/-- Decoding undoes encoding, on the two fields that carry information. -/
theorem decodeRow_opcode_operand {i : Instr} (hwf : i.wellFormed = true) :
    decodeRow i.opcode i.operand = .ok i := by
  cases i with
  | reset | sample | tclk | fg | stop | ontick | onpress | park | parkgo | wake =>
    exact shapeNone_zero _
  | pin v | pollclr v | write v => exact shapeEight_setWidth v _
  | arm p => exact shapePeriod_of_ne _ (bne_iff_ne.1 hwf)
  | enter m => exact shapeMode_code m _

/-- One instruction of each row of R82, in the order of the opcodes. -/
def opcodeMap : List Instr :=
  [.reset, .pin 0#8, .sample, .tclk, .fg, .pollclr 0#8, .arm 0#16, .stop, .write 0#8, .enter .sweep,
    .ontick, .onpress, .park, .parkgo, .wake]

theorem mem_opcodeMap_opcodes :
    ∀ op : BitVec 4, op ≠ 0xF#4 → op ∈ opcodeMap.map Instr.opcode := by decide

theorem exists_instr_of_opcode {op : BitVec 4} (h : op ≠ 0xF#4) : ∃ i : Instr, i.opcode = op := by
  obtain ⟨i, -, hi⟩ := List.mem_map.1 (mem_opcodeMap_opcodes op h)
  exact ⟨i, hi⟩

/-- The row of `op` takes the operand fields of its shape and no others (R81, R87): it refuses one with
bits above the shape's width, and any other, but 0 for `ARM` (R84), is that of an instruction. -/
structure FollowsShape (op : BitVec 4) : Prop where
  refuses : ∀ imm, imm &&& aboveOperand op ≠ 0#16 → decodeRow op imm = .error .reservedBits
  covers : ∀ imm, imm &&& aboveOperand op = 0#16 → ¬(op = 0x6#4 ∧ imm = 0#16) →
    ∃ i : Instr, i.wellFormed = true ∧ i.opcode = op ∧ i.operand = imm

theorem followsShape_of_shapeNone {op : BitVec 4} {i : Instr}
    (hrow : ∀ imm, decodeRow op imm = shapeNone imm i) (habove : aboveOperand op = 0xFFFF#16)
    (hi : i.wellFormed = true ∧ i.opcode = op ∧ i.operand = 0#16) : FollowsShape op := by
  have hmask (imm : BitVec 16) : imm &&& aboveOperand op = imm := by
    rw [habove]
    exact BitVec.and_allOnes
  refine ⟨fun imm hne => ?_, fun imm hz _ => ?_⟩
  · rw [hmask] at hne
    rw [hrow, shapeNone_of_ne i hne]
  · rw [hmask] at hz
    exact ⟨i, hz ▸ hi⟩

theorem followsShape_of_shapeEight {op : BitVec 4} {mk : BitVec 8 → Instr}
    (hrow : ∀ imm, decodeRow op imm = shapeEight imm mk) (habove : aboveOperand op = 0xFF00#16)
    (hmk : ∀ v, (mk v).wellFormed = true ∧ (mk v).opcode = op ∧ (mk v).operand = v.setWidth 16) :
    FollowsShape op := by
  refine ⟨fun imm hne => ?_, fun imm hz _ => ?_⟩
  · rw [hrow, shapeEight_of_above mk (habove ▸ hne)]
  · obtain ⟨v, rfl⟩ := exists_setWidth_of_fits_eight (habove ▸ hz)
    exact ⟨mk v, hmk v⟩

theorem followsShape_arm : FollowsShape 0x6#4 where
  refuses imm hne := absurd BitVec.and_zero hne
  covers imm _ hrange := ⟨.arm imm, by simpa [Instr.wellFormed] using hrange, rfl, rfl⟩

theorem followsShape_enter : FollowsShape 0x9#4 where
  refuses imm hne := shapeMode_of_above .enter hne
  covers imm hz _ := by
    obtain ⟨m, rfl⟩ := exists_code_of_fits_mode hz
    exact ⟨.enter m, rfl, rfl, rfl⟩

theorem opcode_followsShape (i : Instr) : FollowsShape i.opcode := by
  cases i with
  | reset | sample | tclk | fg | stop | ontick | onpress | park | parkgo | wake =>
    exact followsShape_of_shapeNone (fun _ => rfl) rfl ⟨rfl, rfl, rfl⟩
  | pin | pollclr | write =>
    exact followsShape_of_shapeEight (fun _ => rfl) rfl fun _ => ⟨rfl, rfl, rfl⟩
  | arm => exact followsShape_arm
  | enter => exact followsShape_enter

theorem decodeRow_reserved (imm : BitVec 16) : decodeRow 0xF#4 imm = .error .reservedOp := rfl

theorem decodeRow_arm_zero : decodeRow 0x6#4 0#16 = .error .armRange := shapePeriod_zero _

theorem decodeRow_of_above {op : BitVec 4} {imm : BitVec 16} (hop : op ≠ 0xF#4)
    (habove : imm &&& aboveOperand op ≠ 0#16) : decodeRow op imm = .error .reservedBits := by
  obtain ⟨i, rfl⟩ := exists_instr_of_opcode hop
  exact (opcode_followsShape i).refuses imm habove

theorem exists_instr_of_fields {op : BitVec 4} {imm : BitVec 16} (hop : op ≠ 0xF#4)
    (hfits : imm &&& aboveOperand op = 0#16) (hrange : ¬(op = 0x6#4 ∧ imm = 0#16)) :
    ∃ i : Instr, i.wellFormed = true ∧ i.opcode = op ∧ i.operand = imm := by
  obtain ⟨i, rfl⟩ := exists_instr_of_opcode hop
  exact (opcode_followsShape i).covers imm hfits hrange

/-- The opcode map is one-to-one: fields that decode are those of an instruction, and decoding that
instruction's fields gives it back. -/
theorem decodeRow_eq_ok_iff {op : BitVec 4} {imm : BitVec 16} {i : Instr} :
    decodeRow op imm = .ok i ↔ i.wellFormed = true ∧ i.opcode = op ∧ i.operand = imm := by
  constructor
  · intro hok
    have hop : op ≠ 0xF#4 := by
      rintro rfl
      cases hok
    have hfits : imm &&& aboveOperand op = 0#16 := by
      by_contra habove
      cases (decodeRow_of_above hop habove).symm.trans hok
    have hrange : ¬(op = 0x6#4 ∧ imm = 0#16) := by
      rintro ⟨rfl, rfl⟩
      cases decodeRow_arm_zero.symm.trans hok
    obtain ⟨j, hwf, rfl, rfl⟩ := exists_instr_of_fields hop hfits hrange
    cases (decodeRow_opcode_operand hwf).symm.trans hok
    exact ⟨hwf, rfl, rfl⟩
  · rintro ⟨hwf, rfl, rfl⟩
    exact decodeRow_opcode_operand hwf

/-! ### Words at each trace level (R85, R87) -/

theorem decode_of_rsv_ne_zero (lvl : TraceLevel) {w : EventWord} (h : rsvField w ≠ 0#4) :
    decode lvl w = .error .reservedBits := by
  simp [decode, h]

theorem decode_of_decodeRow_error (lvl : TraceLevel) {w : EventWord} {r : Rejection}
    (hrsv : rsvField w = 0#4) (hrow : decodeRow (opField w) (immField w) = .error r) :
    decode lvl w = .error r := by
  simp [decode, hrsv, hrow]

theorem decode_of_decodeRow_ok (lvl : TraceLevel) {w : EventWord} {i : Instr}
    (hrsv : rsvField w = 0#4) (hrow : decodeRow (opField w) (immField w) = .ok i) :
    decode lvl w = admitAt lvl i := by
  simp [decode, hrsv, hrow]

@[simp] theorem admitAt_unit (i : Instr) : admitAt .unit i = .ok i := rfl

theorem admitAt_of_external (lvl : TraceLevel) {i : Instr} (h : i.eventClass = .external) :
    admitAt lvl i = .ok i := by
  cases lvl <;> simp [admitAt, h]

theorem admitAt_top_of_internal {i : Instr} (h : i.eventClass = .internal) :
    admitAt .top i = .error .internalAtTop := by
  simp [admitAt, h]

/-- A level admits a row or refuses it; it never turns it into another. -/
theorem eq_of_admitAt_ok {lvl : TraceLevel} {i j : Instr} (h : admitAt lvl i = .ok j) : i = j := by
  cases lvl with
  | unit => simpa using h
  | top =>
    cases hclass : i.eventClass with
    | external => simpa [admitAt_of_external _ hclass] using h
    | internal => simp [admitAt_top_of_internal hclass] at h

theorem immField_encode (i : Instr) : immField (encode i) = i.operand :=
  immField_eventWord i.opcode i.operand

theorem encode_of_fields {w : EventWord} {i : Instr} (hrsv : rsvField w = 0#4)
    (hop : i.opcode = opField w) (himm : i.operand = immField w) : encode i = w := by
  rw [encode, hop, himm, eventWord_of_fields hrsv]

theorem decode_encode {i : Instr} (hwf : i.wellFormed = true) (lvl : TraceLevel) :
    decode lvl (encode i) = admitAt lvl i := by
  obtain ⟨hop, hrsv⟩ := Laws.EncodedFields.of_any i
  apply decode_of_decodeRow_ok lvl hrsv
  rw [hop, immField_encode, decodeRow_opcode_operand hwf]

theorem encode_of_decode {lvl : TraceLevel} {w : EventWord} {i : Instr} (h : decode lvl w = .ok i) :
    i.wellFormed = true ∧ encode i = w := by
  have hrsv : rsvField w = 0#4 := by
    by_contra hne
    cases (decode_of_rsv_ne_zero lvl hne).symm.trans h
  cases hrow : decodeRow (opField w) (immField w) with
  | error r => cases (decode_of_decodeRow_error lvl hrsv hrow).symm.trans h
  | ok j =>
    obtain rfl := eq_of_admitAt_ok ((decode_of_decodeRow_ok lvl hrsv hrow).symm.trans h)
    obtain ⟨hwf, hop, himm⟩ := decodeRow_eq_ok_iff.1 hrow
    exact ⟨hwf, encode_of_fields hrsv hop himm⟩

/-- What a unit-level trace reads, any trace reads, as far as its level admits it. -/
theorem decode_of_decode_unit {w : EventWord} {i : Instr} (h : decode .unit w = .ok i)
    (lvl : TraceLevel) : decode lvl w = admitAt lvl i := by
  obtain ⟨hwf, rfl⟩ := encode_of_decode h
  exact decode_encode hwf lvl

/-! ### The class of a row (R82) -/

theorem eventClass_eq_external_iff_opcode (i : Instr) :
    i.eventClass = .external ↔ i.opcode.toNat < 5 := by
  cases i <;> simp [Instr.eventClass, Instr.opcode]

theorem eventClass_eq_external_iff (i : Instr) :
    i.eventClass = .external ↔
      i = .reset ∨ (∃ v, i = .pin v) ∨ i = .sample ∨ i = .tclk ∨ i = .fg := by
  cases i <;> simp [Instr.eventClass]

theorem eventClass_eq_internal_of_not_external {i : Instr} (h : i.eventClass ≠ .external) :
    i.eventClass = .internal := by
  cases hclass : i.eventClass with
  | external => exact absurd hclass h
  | internal => rfl

theorem wellFormed_of_external {i : Instr} (h : i.eventClass = .external) :
    i.wellFormed = true := by
  obtain rfl | ⟨v, rfl⟩ | rfl | rfl | rfl := (eventClass_eq_external_iff i).1 h <;> rfl

theorem decode_encode_of_external {i : Instr} (h : i.eventClass = .external) (lvl : TraceLevel) :
    decode lvl (encode i) = .ok i :=
  (decode_encode (wellFormed_of_external h) lvl).trans (admitAt_of_external lvl h)

/-! ### The round trips -/

theorem decode_unit_encode {i : Instr} (hwf : i.wellFormed = true) :
    decode .unit (encode i) = .ok i :=
  (decode_encode hwf .unit).trans (admitAt_unit i)

theorem decodeBytes_encodeBytes {lvl : TraceLevel} {i : Instr} (h : decode lvl (encode i) = .ok i)
    (rest : List Byte) : decodeBytes lvl (encodeBytes i ++ rest) = .ok (i, rest) := by
  rw [encodeBytes, decodeBytes_bytesOfWord, h]

/-- Settles O1: the row of the instruction's opcode reads its operand back, and the word's bytes
read back as the word. -/
theorem decodeOfEncode : Obligations.DecodeOfEncode :=
  fun _ hwf => ⟨decode_unit_encode hwf, decodeBytes_encodeBytes (decode_unit_encode hwf)⟩

/-- Settles O2: a word that decodes has the fields of its instruction, and reserved bits 0. -/
theorem encodeOfDecode : Obligations.EncodeOfDecode :=
  fun _ _ _ => encode_of_decode

/-- Settles O4: each word is the encoding of its instruction. -/
theorem mapWordsDecode : Obligations.MapWordsDecode :=
  ⟨decode_encode_of_external (i := .reset) rfl .top,
    decode_encode_of_external (i := .pin 0xFE#8) rfl .top,
    decode_encode_of_external (i := .sample) rfl .top,
    decode_encode_of_external (i := .tclk) rfl .top,
    decode_encode_of_external (i := .fg) rfl .top,
    decode_unit_encode (i := .pollclr 0x01#8) rfl,
    decode_unit_encode (i := .arm 0xFFFF#16) rfl,
    decode_unit_encode (i := .write 0xAA#8) rfl,
    decode_unit_encode (i := .enter .suspended) rfl,
    decodeBytes_encodeBytes (decode_encode_of_external (i := .pin 0xFE#8) rfl .top) []⟩

end Sys2Proof
end

section
/-!
PROOFS. Words run by the block (`30_encoding.md` R85, R87, R89): which rule a word at the head of the
trace runs at each level, and the pseudo-operations as runs of events.
-/

namespace Sys2Proof.Machine

/-! ### The word at the head of the trace -/

theorem step_of_decode_unit {s : State} {w : EventWord} {rest : List EventWord} {i : Instr}
    (htrace : s.trace = w :: rest) (hunit : decode .unit w = .ok i)
    (hadmit : s.level = .unit ∨ i.eventClass = .external) :
    step s = exec i { s with trace := rest } := by
  apply step_of_decode_ok htrace
  rw [decode_of_decode_unit hunit]
  obtain hlevel | hext := hadmit
  · rw [hlevel, admitAt_unit]
  · exact admitAt_of_external _ hext

theorem step_top_of_internal {s : State} {w : EventWord} {rest : List EventWord} {i : Instr}
    (htrace : s.trace = w :: rest) (hunit : decode .unit w = .ok i) (hlevel : s.level = .top)
    (hint : i.eventClass = .internal) : step s = .refused .internalAtTop := by
  apply step_of_decode_error htrace (r := .internalAtTop)
  rw [hlevel, decode_of_decode_unit hunit, admitAt_top_of_internal hint]

/-- Settles O7: the class decides at top level, and either class runs at unit level. -/
theorem internalOperationsRefusedAtTop : Obligations.InternalOperationsRefusedAtTop := by
  intro s w rest i htrace hunit
  exact ⟨eventClass_eq_external_iff i, step_top_of_internal htrace hunit,
    fun _ hext => step_of_decode_unit htrace hunit (.inr hext),
    fun hlevel => step_of_decode_unit htrace hunit (.inl hlevel)⟩

/-! ### The decoding algorithm (R87) -/

theorem decode_top_of_opcode {w : EventWord} {i : Instr} (hunit : decode .unit w = .ok i) :
    decode .top w = if i.opcode.toNat < 5 then .ok i else .error .internalAtTop := by
  rw [decode_of_decode_unit hunit]
  split
  case isTrue h => exact admitAt_of_external _ ((eventClass_eq_external_iff_opcode i).2 h)
  case isFalse h =>
    exact admitAt_top_of_internal
      (eventClass_eq_internal_of_not_external (mt (eventClass_eq_external_iff_opcode i).1 h))

/-- Settles O3: one refusal for each step of R87, and for the other words the instruction that has
their fields. -/
theorem decodingAlgorithm : Obligations.DecodingAlgorithm := by
  intro lvl w
  refine ⟨decode_of_rsv_ne_zero lvl, fun hrsv hop => ?_, fun hrsv hop habove => ?_,
    fun hrsv hop himm => ?_, fun hrsv hop hfits hrange => ?_⟩
  · exact decode_of_decodeRow_error lvl hrsv (hop ▸ decodeRow_reserved _)
  · exact decode_of_decodeRow_error lvl hrsv (decodeRow_of_above hop habove)
  · exact decode_of_decodeRow_error lvl hrsv (by rw [hop, himm, decodeRow_arm_zero])
  · obtain ⟨i, hwf, hopcode, hoperand⟩ := exists_instr_of_fields hop hfits hrange
    have hunit : decode .unit w = .ok i :=
      encode_of_fields hrsv hopcode hoperand ▸ decode_unit_encode hwf
    refine ⟨i, hopcode, hoperand, hunit, hopcode ▸ decode_top_of_opcode hunit, ?_⟩
    intro s rest htrace hadmit
    rw [← hopcode, ← eventClass_eq_external_iff_opcode] at hadmit
    exact step_of_decode_unit htrace hunit hadmit

/-! ### Pseudo-operations (R89) -/

theorem presentWord_encode_of_external {i : Instr} (h : i.eventClass = .external) :
    presentWord (encode i) = exec i :=
  funext fun s => presentWord_of_decode_ok (decode_encode_of_external h s.level)

theorem andThen_next_right (o : Result) : andThen o .next = o := by
  cases o <;> rfl

theorem runEvents_singleton (i : Instr) : runEvents [i] = exec i :=
  funext fun s => andThen_next_right (exec i s)

theorem repeatRun_eq_runLines_replicate (l : Line) (n : Nat) :
    repeatRun l.run n = runLines (List.replicate n l) := by
  induction n with
  | zero => rfl
  | succ n ih =>
    funext s
    rw [repeatRun, ih, List.replicate_succ, runLines]

/-- Settles O45: the words `PUSH`, `RELEASE` and `LOOP` stand for are external, so every level admits
them; `REP` by induction on its count. -/
theorem pseudoOperationsExpand : Obligations.PseudoOperationsExpand := by
  refine ⟨fun s => ?_, fun s => ?_, fun s => ?_, fun n l s => ?_⟩
  · exact congrFun (presentWord_encode_of_external rfl) s
  · exact congrFun (presentWord_encode_of_external rfl) s
  · simp only [Line.run, presentWord_encode_of_external (i := .fg) rfl, runEvents_cons,
      runEvents_singleton]
  · rw [Line.run, repeatRun_eq_runLines_replicate]

end Sys2Proof.Machine
end

section
/-!
PROOFS. The mode state machine (`41_mode_state_machine.md` R100 to R107): what `ENTER`, `ONTICK` and
`ONPRESS` answer in each mode, any number of ticks in Sweep, any number of presses, and the way through
the halt back to Sweep.
-/

namespace Sys2Proof.Machine

open Safety

/-! ### The meanings of the events of this family -/

@[simp] theorem exec_reset (s : State) : exec .reset s = .next (resetBlock s) := rfl
@[simp] theorem exec_pin (v : KeyVec) (s : State) :
    exec (.pin v) s = .next (pinChange Config.wakeEdge v s) := rfl
@[simp] theorem exec_fg (s : State) : exec .fg s = .next (foregroundStep s) := rfl
@[simp] theorem exec_enter (m : Mode) (s : State) : exec (.enter m) s = .next (enterMode m s) := rfl
@[simp] theorem exec_ontick (s : State) : exec .ontick s = .next (onTick s) := rfl
@[simp] theorem exec_onpress (s : State) : exec .onpress s = .next (onPress s) := rfl

/-- An event that always answers a next state, `n` times in a row. -/
theorem runEvents_replicate {i : Instr} {f : State → State} (h : ∀ s, exec i s = .next (f s))
    (n : Nat) (s : State) : runEvents (List.replicate n i) s = .next (f^[n] s) := by
  induction n generalizing s with
  | zero => rfl
  | succ n ih =>
    rw [List.replicate_succ, runEvents_cons, h, andThen_next, ih, Function.iterate_succ_apply]

/-! ### `ENTER` (R100) -/

/-- The set-up of a running mode writes fixed values, so doing it again changes nothing. -/
theorem enterMode_idem {m : Mode} (hrunning : m ≠ .suspended) (s : State) :
    enterMode m (enterMode m s) = enterMode m s := by
  cases m with
  | sweep | alternate | flash => rfl
  | suspended => exact absurd rfl hrunning

/-- `ENTER`'s word holds the mode's number in its low bits (R83). -/
theorem encode_enter (m : Mode) :
    encode (.enter m) = 0x900000#24 ||| m.code.setWidth 24 := by
  cases m <;> rfl

/-- Settles O19: a case per mode, and the word is the encoding. -/
theorem enterSetsUpMode : Obligations.EnterSetsUpMode := by
  refine ⟨fun s => ⟨rfl, rfl, rfl, rfl, fun m t hrunning henter => ?_⟩, fun m => ?_⟩
  · cases henter
    rw [exec_enter, enterMode_idem hrunning]
  · rw [← encode_enter, decode_unit_encode rfl]

/-! ### `ONTICK` (R102) -/

theorem sweepShift_eq_ite (d : Direction) (p : Pattern) :
    sweepShift d p = if d = .ascending then p <<< 1 else p >>> 1 := by
  cases d <;> rfl

theorem flipDirection_eq_ite (d : Direction) :
    flipDirection d = if d = .ascending then .descending else .ascending := by
  cases d <;> rfl

theorem sweepAtEnd_iff (p : Pattern) : sweepAtEnd p = true ↔ p = 0x01#8 ∨ p = 0x80#8 := by
  simp [sweepAtEnd, Config.sweepInit, Config.sweepTop]

/-- The pair `(PAT, DIR)` after a Sweep tick: the flip looks at the shifted pattern (R102). -/
def sweepNext (q : Pattern × Direction) : Pattern × Direction :=
  let p := sweepShift q.2 q.1
  (p, if sweepAtEnd p then flipDirection q.2 else q.2)

/-- `s` with the pair `q` as its Sweep Working State, shown on `LED`. -/
def showSweep (q : Pattern × Direction) (s : State) : State :=
  { s with pat := q.1, dir := q.2, led := q.1 }

theorem sweepTick_eq_showSweep (s : State) :
    sweepTick s = showSweep (sweepNext (s.pat, s.dir)) s := rfl

theorem onTick_sweep_eq {s : State} (h : s.mode = .sweep) :
    onTick s = showSweep (sweepNext (s.pat, s.dir)) s :=
  (onTick_sweep h).trans (sweepTick_eq_showSweep s)

/-- Settles O20: the Sweep tick by its pair, the other modes by their equations. -/
theorem ontickAdvancesMode : Obligations.OntickAdvancesMode := by
  refine ⟨decode_unit_encode (i := .ontick) rfl, fun s => ⟨fun hsweep => ?_, fun htoggle => ?_,
    fun hsuspended => ?_⟩⟩
  · refine ⟨_, rfl, ?_⟩
    rw [exec_ontick, onTick_sweep_eq hsweep]
    simp only [showSweep, sweepNext, sweepAtEnd_iff, sweepShift_eq_ite, flipDirection_eq_ite]
  · rw [exec_ontick, onTick_toggle htoggle]
  · rw [exec_ontick, onTick_suspended hsuspended, enterMode_sweep]

/-! ### Ticks in a row: the cycle of fourteen pairs (R103) -/

/-- In Sweep only the pair counts: `n + 1` ticks are `n + 1` steps of the pair, shown once. -/
theorem iterate_onTick_sweep {s : State} (h : s.mode = .sweep) (n : Nat) :
    onTick^[n + 1] s = showSweep (sweepNext^[n + 1] (s.pat, s.dir)) s := by
  induction n with
  | zero => exact onTick_sweep_eq h
  | succ n ih =>
    have hmode : (showSweep (sweepNext^[n + 1] (s.pat, s.dir)) s).mode = .sweep := h
    rw [Function.iterate_succ_apply', ih, onTick_sweep_eq hmode, Function.iterate_succ_apply' _ (n + 1)]
    rfl

/-- Entry `k mod 14` of R103's list. -/
def sweepEntry (k : Nat) : Pattern × Direction := sweepCycle.getD (k % 14) (0x00#8, .ascending)

/-- Each pair of R103's list follows from the one before it, the first from the last. -/
theorem sweepNext_sweepEntry (k : Nat) : sweepNext (sweepEntry k) = sweepEntry (k + 1) := by
  have hlist : ∀ j < 14, sweepNext (sweepEntry j) = sweepEntry (j + 1) := by decide
  have hentry := hlist (k % 14) (Nat.mod_lt k (by decide))
  simpa only [sweepEntry, Nat.mod_mod, Nat.mod_add_mod] using hentry

theorem iterate_sweepNext (n : Nat) :
    sweepNext^[n + 1] (0x01#8, .ascending) = sweepEntry n := by
  induction n with
  | zero => rfl
  | succ n ih => rw [Function.iterate_succ_apply', ih, sweepNext_sweepEntry]

/-- No pair of R103's list points off an end. -/
theorem sweepEntry_not_off_end (k : Nat) :
    sweepEntry k ≠ (0x80#8, .ascending) ∧ sweepEntry k ≠ (0x01#8, .descending) := by
  have hlist : ∀ j < 14, sweepEntry j ≠ (0x80#8, .ascending) ∧
      sweepEntry j ≠ (0x01#8, .descending) := by decide
  have hentry := hlist (k % 14) (Nat.mod_lt k (by decide))
  simpa only [sweepEntry, Nat.mod_mod] using hentry

/-- Settles O21: the run is the iterated pair, and the iterated pair is the list's entry. -/
theorem sweepCyclesInFourteenTicks : Obligations.SweepCyclesInFourteenTicks := by
  intro s hsweep hpat hdir n
  refine ⟨(sweepEntry n).1, (sweepEntry n).2, ?_, rfl, sweepEntry_not_off_end n⟩
  rw [runEvents_replicate exec_ontick, iterate_onTick_sweep hsweep, hpat, hdir, iterate_sweepNext]
  rfl

/-! ### `ONPRESS` (R104) -/

theorem onPress_sweep {s : State} (h : s.mode = .sweep) :
    onPress s = { s with
      mode := .alternate, led := 0xAA#8, ten := true, tcmp := Config.pAlt, tcnt := 0#16,
      tick := false } := by
  simpa [h] using onPress_cases s

theorem onPress_alternate {s : State} (h : s.mode = .alternate) :
    onPress s = { s with
      mode := .flash, led := 0xFF#8, ten := true, tcmp := Config.pFlash, tcnt := 0#16,
      tick := false } := by
  simpa [h] using onPress_cases s

theorem onPress_flash {s : State} (h : s.mode = .flash) :
    onPress s = { s with
      mode := .suspended, led := 0x00#8, ten := false, tcnt := 0#16, tick := false,
      ie := false, fgp := .pd } := by
  simpa [h] using onPress_cases s

theorem onPress_suspended {s : State} (h : s.mode = .suspended) :
    onPress s = { s with
      mode := .sweep, pat := 0x01#8, dir := .ascending, ten := true, tcmp := Config.pSweep,
      tcnt := 0#16, tick := false } := by
  simpa [h] using onPress_cases s

/-- Settles O22: the press's equation in each mode. -/
theorem onpressEntersNextMode : Obligations.OnpressEntersNextMode :=
  ⟨decode_unit_encode (i := .onpress) rfl, fun s =>
    ⟨fun hsweep => (exec_onpress s).trans (congrArg _ (onPress_sweep hsweep)),
      fun halternate => (exec_onpress s).trans (congrArg _ (onPress_alternate halternate)),
      fun hflash => (exec_onpress s).trans (congrArg _ (onPress_flash hflash)),
      fun hsuspended => (exec_onpress s).trans (congrArg _ (onPress_suspended hsuspended))⟩⟩

/-- Settles O23: the mode after `RESET`, a tick and a press. -/
theorem modeTransitionTable : Obligations.ModeTransitionTable := by
  refine fun s => ⟨⟨_, exec_reset s, rfl⟩, ⟨_, exec_ontick s, ?_⟩, ⟨_, exec_onpress s, ?_⟩⟩
  · rw [onTick_mode]
    cases s.mode <;> rfl
  · rw [onPress_mode]
    cases s.mode <;> rfl

/-! ### Presses in a row (R107) -/

theorem code_nextMode (m : Mode) : (nextMode m).code = m.code + 1#2 := by
  cases m <;> rfl

theorem code_injective : Function.Injective Mode.code :=
  Function.LeftInverse.injective modeOfCode_code

theorem iterate_onPress_code (n : Nat) (s : State) :
    (onPress^[n] s).mode.code = s.mode.code + BitVec.ofNat 2 n := by
  induction n with
  | zero => exact (BitVec.add_zero _).symm
  | succ n ih =>
    rw [Function.iterate_succ_apply', onPress_mode, code_nextMode, ih, BitVec.ofNat_add,
      BitVec.add_assoc]

/-- Settles O24: a press adds 1 to the mode's number, which has two bits. -/
theorem pressesCycleWithPeriodFour : Obligations.PressesCycleWithPeriodFour := by
  intro n s
  refine ⟨_, runEvents_replicate exec_onpress n s, iterate_onPress_code n s, fun hfour => ?_⟩
  have hzero : BitVec.ofNat 2 n = 0#2 := BitVec.eq_of_toNat_eq (by simpa using hfour)
  apply code_injective
  rw [iterate_onPress_code, hzero, BitVec.add_zero]

/-! ### Through the halt back to Sweep (R105) -/

/-- The read-and-clear leaves exactly the pending bits outside the mask (R126). -/
theorem pollClear_state (m : KeyVec) (s : State) :
    (pollClear m s).2 = { s with keyPress := s.keyPress &&& ~~~m } := by
  have hcleared : s.keyPress &&& ~~~(m &&& s.keyPress) = s.keyPress &&& ~~~m := by
    ext i
    cases hbit : s.keyPress[i] <;> simp [hbit]
  rw [pollClear, hcleared]

theorem foregroundStep_of_pk_press {s : State} (hhalt : s.halt = false) (hpk : s.fgp = .pk)
    (hpress : pressPending s = true) :
    foregroundStep s = onPress { s with fgp := .pt, keyPress := s.keyPress &&& 0xFE#8 } := by
  have hkept : ~~~Config.keyMask = 0xFE#8 := rfl
  simpa [hhalt, hpk, hpress, pollClear_keyMask_eq_zero_iff, pollClear_state, hkept]
    using foregroundStep_cases s

theorem foregroundStep_of_pd {s : State} (hhalt : s.halt = false) (hpd : s.fgp = .pd) :
    foregroundStep s = parkGoBlock s := by
  simp [foregroundStep, hhalt, hpd]

/-- The armed watch, with the instance's `WAKE_EDGE = any`, fires on every change of the button (R164). -/
theorem pinChange_wakes_of_changed {v : KeyVec} {s : State} (hwatch : s.wakeEn = true)
    (hie : s.ie = true) (hchanged : buttonLine v ≠ buttonLine s.keyin) :
    pinChange Config.wakeEdge v s = { s with keyin := v, wakeEn := false, halt := false } := by
  have hmatches : edgeMatches Config.wakeEdge (buttonLine s.keyin) (buttonLine v) = true :=
    bne_iff_ne.2 hchanged.symm
  obtain ⟨-, -, -, hwakes⟩ | ⟨hclosed, -⟩ := pinChange_cases Config.wakeEdge v s
  · exact hwakes
  · simp [hwatch, hie, hmatches] at hclosed

/-- R105, first half: the press in Flash is drained and starts the settle delay, whose end halts. -/
theorem runEvents_flash_to_halt {s : State} (hflash : s.mode = .flash) (hpk : s.fgp = .pk)
    (hhalt : s.halt = false) (hpress : pressPending s = true) :
    runEvents [.fg, .fg] s = .next { s with
      mode := .suspended, led := 0x00#8, ten := false, tcnt := 0#16, tick := false,
      keyPress := s.keyPress &&& 0xFE#8, wakeEn := true, halt := true, ie := true, fgp := .pw } := by
  have hdelay : foregroundStep s = { s with
      mode := .suspended, led := 0x00#8, ten := false, tcnt := 0#16, tick := false,
      keyPress := s.keyPress &&& 0xFE#8, ie := false, fgp := .pd } :=
    (foregroundStep_of_pk_press hhalt hpk hpress).trans (onPress_flash hflash)
  simp [hdelay, foregroundStep_of_pd, hhalt, parkGoBlock]

/-- R105, second half: the wake, the tick it leads to at `PW`, and the recovery that tick runs. -/
theorem runEvents_halt_to_sweep {s : State} {v : KeyVec} (hsuspended : s.mode = .suspended)
    (hwatch : s.wakeEn = true) (hie : s.ie = true) (hpw : s.fgp = .pw)
    (hchanged : buttonLine v ≠ buttonLine s.keyin) :
    runEvents [.pin v, .fg, .fg] s = .next { s with
      mode := .sweep, pat := 0x01#8, dir := .ascending, ten := true, tcmp := Config.pSweep,
      tcnt := 0#16, tick := false, keyin := v, wakeEn := false, halt := false, fgp := .pk } := by
  have hwake := pinChange_wakes_of_changed hwatch hie hchanged
  simp [hwake, foregroundStep_of_pw, hpw, foregroundStep_of_pt_tick, onTick_suspended, hsuspended]

/-- Settles O31: the two halves one after the other. -/
theorem suspendAndWakeReturnToSweep : Obligations.SuspendAndWakeReturnToSweep := by
  intro s v hflash hpk hhalt hpress hchanged
  have hhalts := runEvents_flash_to_halt hflash hpk hhalt hpress
  refine ⟨hhalts, (runEvents_append [.fg, .fg] [.pin v, .fg, .fg] s).trans ?_⟩
  rw [hhalts, andThen_next]
  exact runEvents_halt_to_sweep rfl rfl rfl rfl hchanged

end Sys2Proof.Machine
end

section
/-!
PROOFS. The debouncer (`42_debouncer.md` R120 to R127): what `POLLCLR` and `SAMPLE` answer, R124's
equations bit by bit as R122's rule for one lane, and a lane under a run of pressed samples.
-/

namespace Sys2Proof.Machine

open Safety

/-! ### The meanings of the events of this family -/

@[simp] theorem exec_sample (s : State) : exec .sample s = .next (takeInterrupt .sample s) := rfl
@[simp] theorem exec_pollclr (m : KeyVec) (s : State) :
    exec (.pollclr m) s =
      .next { (pollClear m s).2 with result := some (pollClear m s).1 } := rfl

theorem takeSample_of_closed {s : State} (h : s.halt = true ∨ s.ie = false) :
    takeInterrupt .sample s = s := by
  apply takeInterrupt_of_closed
  obtain hhalt | hie := h
  · simp [irqOpen, sampleGate, hhalt]
  · simp [irqOpen, sampleGate, hie]

theorem takeSample_of_open {s : State} (hhalt : s.halt = false) (hie : s.ie = true) :
    takeInterrupt .sample s = sampleHandler s := by
  apply takeInterrupt_of_open
  simp [irqOpen, sampleGate, hhalt, hie]

/-! ### `POLLCLR` (R126) -/

/-- An operand of shape `K` or `8` stands in the low bits of the word (R81). -/
theorem eventWord_setWidth_eight (op : BitVec 4) (v : BitVec 8) :
    eventWord op (v.setWidth 16) = eventWord op 0#16 ||| v.setWidth 24 := by
  apply BitVec.eq_of_getLsbD_eq
  intro k hk
  rw [BitVec.getLsbD_or, getLsbD_eventWord, getLsbD_eventWord]
  by_cases hoperand : k < 16
  · simp [hoperand, hk]
  · simp [hoperand, v.getLsbD_of_ge k (by omega)]

theorem encode_pollclr (m : KeyVec) : encode (.pollclr m) = 0x500000#24 ||| m.setWidth 24 :=
  eventWord_setWidth_eight 0x5#4 m

/-- Once the shared bits are cleared the mask shares none (R126). -/
theorem and_clear_shared (m kp : KeyVec) : m &&& (kp &&& ~~~(m &&& kp)) = 0#8 := by
  ext i
  cases hbit : m[i] <;> simp [hbit]

theorem pollClear_of_drained {m : KeyVec} {s : State} (h : m &&& s.keyPress = 0#8) :
    pollClear m s = (0#8, s) := by
  have hkept : s.keyPress &&& ~~~0#8 = s.keyPress := BitVec.and_allOnes
  simp only [pollClear, h, hkept]

/-- Settles O14: `POLLCLR` is the read-and-clear, and leaves its mask drained. -/
theorem pollclrReturnsAndClears : Obligations.PollclrReturnsAndClears := by
  rintro m s t rfl
  refine ⟨rfl, ?_, ?_⟩
  · rw [exec_pollclr, pollClear_of_drained (and_clear_shared m s.keyPress)]
  · rw [← encode_pollclr, decode_unit_encode rfl]

/-! ### R124's equations, bit by bit -/

section Bits

variable (s : State) {i : Nat}

/-- Only on the lanes that exist is the complement of the raw level the logical level (R121). -/
theorem getLsbD_debDiff (hi : i < Config.keyW) :
    (debDiff s).getLsbD i = ((!s.keyin.getLsbD i) ^^ s.keyState.getLsbD i) := by
  have hi8 : i < 8 := hi
  simp [debDiff, logicalLevel, hi8]

theorem getLsbD_debToggle :
    (debToggle s).getLsbD i = ((debDiff s).getLsbD i && s.ct1.getLsbD i) :=
  BitVec.getLsbD_and

theorem getLsbD_debKeyState :
    (debKeyState s).getLsbD i = (s.keyState.getLsbD i ^^ (debToggle s).getLsbD i) :=
  BitVec.getLsbD_xor

theorem getLsbD_debCt1 (hi : i < Config.keyW) :
    (debCt1 s).getLsbD i = ((debDiff s).getLsbD i && !s.ct1.getLsbD i && s.ct0.getLsbD i) := by
  have hi8 : i < 8 := hi
  simp [debCt1, hi8]

theorem getLsbD_debCt0 (hi : i < Config.keyW) :
    (debCt0 s).getLsbD i = ((debDiff s).getLsbD i && !s.ct1.getLsbD i && !s.ct0.getLsbD i) := by
  have hi8 : i < 8 := hi
  simp [debCt0, hi8]

theorem getLsbD_debKeyPress (hi : i < Config.keyW) :
    (debKeyPress s).getLsbD i =
      (s.keyPress.getLsbD i || ((debToggle s).getLsbD i && !s.keyState.getLsbD i)) := by
  have hi8 : i < 8 := hi
  simp [debKeyPress, hi8]

end Bits

/-! ### One lane (R120, R122) -/

theorem laneSample_of_agrees (l : Lane) : laneSample l.settled l = { l with count := 0 } := by
  simp [laneSample]

theorem laneSample_of_settles {lvl : Bool} {l : Lane} (hdiffers : lvl ≠ l.settled)
    (hcount : 2 ≤ l.count) :
    laneSample lvl l = { settled := lvl, count := 0, pending := l.pending || lvl } := by
  simp [laneSample, hdiffers, hcount]

theorem laneSample_of_counts {lvl : Bool} {l : Lane} (hdiffers : lvl ≠ l.settled)
    (hcount : l.count < 2) : laneSample lvl l = { l with count := l.count + 1 } := by
  simp [laneSample, hdiffers, hcount]

/-- The high counter bit is R122's test for a count of 2, with 3 treated as 2. -/
theorem two_le_laneOf_count_iff (s : State) (i : Nat) :
    2 ≤ (laneOf s i).count ↔ s.ct1.getLsbD i = true := by
  cases hc1 : s.ct1.getLsbD i <;> cases hc0 : s.ct0.getLsbD i <;> simp [laneOf, hc1, hc0]

/-- A sampled lane in terms of its old bits, `d` telling whether the sample differs (R124). -/
theorem laneOf_sampleHandler_of_debDiff {s : State} {i : Nat} (hi : i < Config.keyW) {d : Bool}
    (hd : (debDiff s).getLsbD i = d) :
    laneOf (sampleHandler s) i =
      { settled := s.keyState.getLsbD i ^^ (d && s.ct1.getLsbD i)
        count := 2 * (d && !s.ct1.getLsbD i && s.ct0.getLsbD i).toNat +
          (d && !s.ct1.getLsbD i && !s.ct0.getLsbD i).toNat
        pending := s.keyPress.getLsbD i || (d && s.ct1.getLsbD i && !s.keyState.getLsbD i) } := by
  simp only [laneOf, sampleHandler_keyState, sampleHandler_ct1, sampleHandler_ct0,
    sampleHandler_keyPress, getLsbD_debKeyState, getLsbD_debCt1 s hi, getLsbD_debCt0 s hi,
    getLsbD_debKeyPress s hi, getLsbD_debToggle, hd]

/-- R124's equations are R122's rule, lane by lane. -/
theorem laneOf_sampleHandler (s : State) {i : Nat} (hi : i < Config.keyW) :
    laneOf (sampleHandler s) i = laneSample (!s.keyin.getLsbD i) (laneOf s i) := by
  by_cases hagrees : (!s.keyin.getLsbD i) = (laneOf s i).settled
  · have hsame : (debDiff s).getLsbD i = false :=
      (getLsbD_debDiff s hi).trans (bne_eq_false_iff_eq.2 hagrees)
    rw [laneOf_sampleHandler_of_debDiff hi hsame, hagrees, laneSample_of_agrees]
    simp [laneOf]
  · have hother : (debDiff s).getLsbD i = true :=
      (getLsbD_debDiff s hi).trans (bne_iff_ne.2 hagrees)
    rw [laneOf_sampleHandler_of_debDiff hi hother]
    cases hc1 : s.ct1.getLsbD i with
    | true =>
      have hflip : (!s.keyin.getLsbD i) = !s.keyState.getLsbD i := Bool.eq_not.2 hagrees
      rw [laneSample_of_settles hagrees ((two_le_laneOf_count_iff s i).2 hc1), hflip]
      simp [laneOf]
    | false =>
      have hcount : (laneOf s i).count < 2 :=
        Nat.lt_of_not_le (mt (two_le_laneOf_count_iff s i).1 (by simp [hc1]))
      rw [laneSample_of_counts hagrees hcount]
      cases hc0 : s.ct0.getLsbD i <;> simp [laneOf, hc1, hc0]

/-- Settles O15: the gate, and with it open R122's rule on every lane. -/
theorem sampleUpdatesEveryLane : Obligations.SampleUpdatesEveryLane := by
  refine ⟨decode_encode_of_external (i := .sample) rfl .top, fun s => ⟨fun hclosed => ?_,
    fun hhalt hie => ?_⟩⟩
  · rw [exec_sample, takeSample_of_closed hclosed]
  · refine ⟨debKeyState s, debCt1 s, debCt0 s, debKeyPress s, _, rfl, ?_,
      fun _ hi => laneOf_sampleHandler s hi⟩
    rw [exec_sample, takeSample_of_open hhalt hie]
    rfl

/-- Settles O16: with the gate open a sample is its handler, whose four values are R124's. -/
theorem sampleBitPlaneEquations : Obligations.SampleBitPlaneEquations := by
  intro s hhalt hie
  refine ⟨debDiff s, debToggle s, rfl, rfl, ?_⟩
  rw [exec_sample, takeSample_of_open hhalt hie]
  rfl

/-! ### Samples in a row (R123, R127) -/

/-- The sampler's gate is open, and no change of the lines wakes anything. -/
structure Samples (s : State) : Prop where
  halt : s.halt = false
  ie : s.ie = true
  wakeEn : s.wakeEn = false

theorem pinChange_of_wakeEn_false {s : State} (h : s.wakeEn = false) (e : Config.WakeEdge)
    (v : KeyVec) : pinChange e v s = { s with keyin := v } := by
  simpa [h] using pinChange_cases e v s

theorem runEvents_pin_sample {s : State} (h : Samples s) (v : KeyVec) :
    runEvents [.pin v, .sample] s = .next (sampleHandler { s with keyin := v }) := by
  rw [runEvents_cons, runEvents_singleton, exec_pin, pinChange_of_wakeEn_false h.wakeEn,
    andThen_next, exec_sample, takeSample_of_open (s := { s with keyin := v }) h.halt h.ie]

theorem sampledLevels_cons (v : KeyVec) (vs : List KeyVec) :
    sampledLevels (v :: vs) = [.pin v, .sample] ++ sampledLevels vs := rfl

/-- What a lane makes of the levels of a run, whatever the other lanes read. -/
def laneRun (i : Nat) (vs : List KeyVec) (l : Lane) : Lane :=
  vs.foldl (fun m v => laneSample (!v.getLsbD i) m) l

/-- Every lane follows its own levels alone along a run, and the sampler goes on sampling. -/
theorem runEvents_sampledLevels {s : State} (h : Samples s) (vs : List KeyVec) :
    ∃ t, runEvents (sampledLevels vs) s = .next t ∧ Samples t ∧
      ∀ i < Config.keyW, laneOf t i = laneRun i vs (laneOf s i) := by
  induction vs generalizing s with
  | nil => exact ⟨s, rfl, h, fun _ _ => rfl⟩
  | cons v vs ih =>
    obtain ⟨t, hrun, hsamples, hlanes⟩ :=
      ih (s := sampleHandler { s with keyin := v }) ⟨h.halt, h.ie, h.wakeEn⟩
    refine ⟨t, ?_, hsamples, fun i hi => ?_⟩
    · rw [sampledLevels_cons, runEvents_append, runEvents_pin_sample h, andThen_next, hrun]
    · rw [hlanes i hi, laneOf_sampleHandler _ hi]
      rfl

/-- Levels that all show the lane pressed are so many pressed samples of it. -/
theorem laneRun_of_pressed {i : Nat} {vs : List KeyVec} (hpressed : ∀ v ∈ vs, v.getLsbD i = false)
    (l : Lane) : laneRun i vs l = (laneSample true)^[vs.length] l := by
  induction vs generalizing l with
  | nil => rfl
  | cons v vs ih =>
    obtain ⟨hv, hvs⟩ := List.forall_mem_cons.1 hpressed
    have hfirst : laneRun i (v :: vs) l = laneRun i vs (laneSample (!v.getLsbD i) l) := rfl
    rw [hfirst, hv, ih hvs]
    rfl

theorem iterate_laneSample_below_three (pending : Bool) {n : Nat} (h : n < 3) :
    (laneSample true)^[n] { settled := false, count := 0, pending } =
      { settled := false, count := n, pending } := by
  interval_cases n <;> rfl

/-- The third pressed sample settles the lane, and further ones leave it so. -/
theorem iterate_laneSample_from_three (pending : Bool) {n : Nat} (h : 3 ≤ n) :
    (laneSample true)^[n] { settled := false, count := 0, pending } =
      { settled := true, count := 0, pending := true } := by
  obtain ⟨k, rfl⟩ := Nat.exists_eq_add_of_le' h
  have hthird : (laneSample true)^[3] { settled := false, count := 0, pending } =
      { settled := true, count := 0, pending := true } := by cases pending <;> rfl
  rw [Function.iterate_add_apply, hthird]
  exact Function.iterate_fixed rfl k

/-- Settles O17: the lane's run of pressed samples, iterated fewer than three times or more. -/
theorem debounceNeedsThreeSamples : Obligations.DebounceNeedsThreeSamples := by
  intro s i hi hhalt hie hwake hsettled hcount vs hpressed
  obtain ⟨t, hrun, hsamples, hlanes⟩ := runEvents_sampledLevels ⟨hhalt, hie, hwake⟩ vs
  have hstart : laneOf s i = { settled := false, count := 0, pending := (laneOf s i).pending } := by
    rw [← hsettled, ← hcount]
  have hlane := hlanes i hi
  rw [laneRun_of_pressed hpressed] at hlane
  refine ⟨t, hrun, fun hfew => ?_, fun hmany => ?_⟩
  · rw [hstart, iterate_laneSample_below_three _ hfew] at hlane
    refine ⟨hlane.trans (by rw [hstart]), fun v hreleased => ?_⟩
    obtain ⟨u, hrelease, -, hback⟩ := runEvents_sampledLevels hsamples [v]
    refine ⟨u, hrelease, ?_⟩
    rw [hback i hi, hlane, hstart]
    simp [laneRun, hreleased, laneSample]
  · rw [hlane, hstart, iterate_laneSample_from_three _ hmany]

end Sys2Proof.Machine
end

section
/-!
PROOFS. Noninterference (`42_debouncer.md` R120; `93_implementation_defined.md` U17): what an event does
with the debouncer and the lines. All but `RESET`, `PIN`, `SAMPLE` and the foreground's poll are blind to
both; in those four nothing but the other lanes themselves depends on the other lanes.
-/

namespace Sys2Proof.Machine

open Safety

/-! ### Events blind to the lanes -/

/-- `s` with every item that has one bit per lane at the given values: the debouncer and the lines. -/
def State.withLanes (s : State) (ks c1 c0 kp ki : KeyVec) : State :=
  { s.withDebouncer ks c1 c0 kp with keyin := ki }

/-- At `s` the operation `f` neither reads nor writes the debouncer or the lines. -/
def BlindToLanes (f : State → State) (s : State) : Prop :=
  ∀ ks c1 c0 kp ki : KeyVec, f (s.withLanes ks c1 c0 kp ki) = (f s).withLanes ks c1 c0 kp ki

namespace BlindToLanes

variable {f g : State → State} {s t : State}

theorem idle (s : State) : BlindToLanes id s := fun _ _ _ _ _ => rfl

/-- Only what `f` does at `s`, whatever the lanes hold, matters. -/
theorem of_eq (hg : BlindToLanes g s)
    (heq : ∀ ks c1 c0 kp ki : KeyVec,
      f (s.withLanes ks c1 c0 kp ki) = g (s.withLanes ks c1 c0 kp ki)) :
    BlindToLanes f s := by
  have hs : f s = g s := heq s.keyState s.ct1 s.ct0 s.keyPress s.keyin
  intro ks c1 c0 kp ki
  rw [heq, hs, hg]

theorem comp (hg : BlindToLanes g (f s)) (hf : BlindToLanes f s) :
    BlindToLanes (fun t => g (f t)) s := fun ks c1 c0 kp ki =>
  (congrArg g (hf ks c1 c0 kp ki)).trans (hg ks c1 c0 kp ki)

/-- Blindness at the values the lanes have: `f` leaves them. -/
theorem eq_withLanes (h : BlindToLanes f s) :
    f s = (f s).withLanes s.keyState s.ct1 s.ct0 s.keyPress s.keyin :=
  h s.keyState s.ct1 s.ct0 s.keyPress s.keyin

theorem laneOf_eq (h : BlindToLanes f s) (i : Nat) : laneOf (f s) i = laneOf s i := by
  rw [h.eq_withLanes]
  rfl

theorem keyin_eq (h : BlindToLanes f s) : (f s).keyin = s.keyin := by
  rw [h.eq_withLanes]
  rfl

/-- A blind operation carries the relation over: the lanes stay as they were on both sides. -/
theorem sameButOtherLanes (h : BlindToLanes f s) (hst : SameButOtherLanes s t) :
    SameButOtherLanes (f s) (f t) := by
  obtain ⟨⟨ks, c1, c0, kp, ki, rfl⟩, hlane, hline⟩ := hst
  have hft : f (s.withLanes ks c1 c0 kp ki) = (f s).withLanes ks c1 c0 kp ki := h ks c1 c0 kp ki
  refine ⟨⟨ks, c1, c0, kp, ki, hft⟩, ?_, ?_⟩
  · exact (congrArg (laneOf · Config.keyBit) hft).trans
      (hlane.trans (h.laneOf_eq Config.keyBit).symm)
  · exact (congrArg (buttonLine ·.keyin) hft).trans
      (hline.trans (congrArg buttonLine h.keyin_eq.symm))

end BlindToLanes

theorem countStrobe_blindToLanes (s : State) : BlindToLanes countStrobe s := by
  cases hgate : tclkGate s with
  | false => exact (BlindToLanes.idle s).of_eq fun _ _ _ _ _ => countStrobe_of_closed hgate
  | true =>
    by_cases hmatch : s.tcnt + 1#16 = s.tcmp
    · have hticks : BlindToLanes timerHandler s := fun _ _ _ _ _ => rfl
      exact hticks.of_eq fun _ _ _ _ _ => countStrobe_of_match hgate hmatch
    · have hcounts : BlindToLanes (fun t => { t with tcnt := t.tcnt + 1#16 }) s :=
        fun _ _ _ _ _ => rfl
      exact hcounts.of_eq fun _ _ _ _ _ => countStrobe_of_no_match hgate hmatch

theorem onTick_blindToLanes (s : State) : BlindToLanes onTick s := by
  have htoggle : BlindToLanes (fun t => { t with led := ~~~t.led }) s := fun _ _ _ _ _ => rfl
  cases hmode : s.mode with
  | sweep =>
    have hsweep : BlindToLanes sweepTick s := fun _ _ _ _ _ => rfl
    exact hsweep.of_eq fun _ _ _ _ _ => onTick_sweep hmode
  | alternate => exact htoggle.of_eq fun _ _ _ _ _ => onTick_toggle (.inl hmode)
  | flash => exact htoggle.of_eq fun _ _ _ _ _ => onTick_toggle (.inr hmode)
  | suspended =>
    have hrecovers : BlindToLanes (fun t => enterMode .sweep { t with mode := .sweep }) s :=
      fun _ _ _ _ _ => rfl
    exact hrecovers.of_eq fun _ _ _ _ _ => onTick_suspended hmode

theorem enterMode_blindToLanes (m : Mode) (s : State) : BlindToLanes (enterMode m) s := by
  cases m <;> exact fun _ _ _ _ _ => rfl

theorem onPress_blindToLanes (s : State) : BlindToLanes onPress s := fun ks c1 c0 kp ki =>
  enterMode_blindToLanes (nextMode s.mode)
    { stopTimer s with tick := false, mode := nextMode s.mode } ks c1 c0 kp ki

/-- Away from the poll at `PK` the foreground looks at no lane. -/
theorem foregroundStep_blindToLanes {s : State} (hphase : s.halt = true ∨ s.fgp ≠ .pk) :
    BlindToLanes foregroundStep s := by
  cases hhalt : s.halt with
  | true => exact (BlindToLanes.idle s).of_eq fun _ _ _ _ _ => foregroundStep_of_halt hhalt
  | false =>
    cases hfgp : s.fgp with
    | pt =>
      cases htick : s.tick with
      | false =>
        have hquiet : BlindToLanes (fun t => { t with fgp := .pk }) s := fun _ _ _ _ _ => rfl
        exact hquiet.of_eq fun _ _ _ _ _ => foregroundStep_of_pt_quiet hhalt hfgp htick
      | true =>
        have hclears : BlindToLanes (fun t => { t with tick := false, fgp := .pk }) (onTick s) :=
          fun _ _ _ _ _ => rfl
        exact (hclears.comp (onTick_blindToLanes s)).of_eq fun _ _ _ _ _ =>
          foregroundStep_of_pt_tick hhalt hfgp htick
    | pk => simp [hhalt, hfgp] at hphase
    | pd =>
      have hparks : BlindToLanes parkGoBlock s := fun _ _ _ _ _ => rfl
      exact hparks.of_eq fun _ _ _ _ _ => foregroundStep_of_pd hhalt hfgp
    | pw =>
      have hresumes : BlindToLanes (fun t => { t with tick := true, fgp := .pt }) s :=
        fun _ _ _ _ _ => rfl
      exact hresumes.of_eq fun _ _ _ _ _ => foregroundStep_of_pw hhalt hfgp

/-! ### The events that use the lanes -/

section Related

variable {s t : State}

/-- `s` after the foreground's poll: at `PT`, the button's press cleared, those of other lanes kept. -/
def drainButton (s : State) : State := { s with fgp := .pt, keyPress := s.keyPress &&& 0xFE#8 }

theorem foregroundStep_of_pk_quiet (hhalt : s.halt = false) (hpk : s.fgp = .pk)
    (hpress : pressPending s = false) : foregroundStep s = drainButton s := by
  have hkept : ~~~Config.keyMask = 0xFE#8 := rfl
  simpa [hhalt, hpk, hpress, pollClear_keyMask_eq_zero_iff, pollClear_state, hkept, drainButton]
    using foregroundStep_cases s

theorem foregroundStep_of_pk (hhalt : s.halt = false) (hpk : s.fgp = .pk) :
    foregroundStep s =
      if pressPending s then onPress (drainButton s) else drainButton s := by
  cases hpress : pressPending s with
  | true => exact foregroundStep_of_pk_press hhalt hpk hpress
  | false => exact foregroundStep_of_pk_quiet hhalt hpk hpress

theorem laneOf_drainButton (s : State) :
    laneOf (drainButton s) Config.keyBit = { laneOf s Config.keyBit with pending := false } := by
  simp [laneOf, drainButton, Config.keyBit]

theorem pressPending_eq_of_sameButOtherLanes (h : SameButOtherLanes s t) :
    pressPending t = pressPending s := congrArg Lane.pending h.lane

theorem drainButton_sameButOtherLanes (h : SameButOtherLanes s t) :
    SameButOtherLanes (drainButton s) (drainButton t) := by
  have hlane : laneOf (drainButton t) Config.keyBit = laneOf (drainButton s) Config.keyBit := by
    rw [laneOf_drainButton, laneOf_drainButton, h.lane]
  obtain ⟨⟨ks, c1, c0, kp, ki, rfl⟩, -, hline⟩ := h
  exact ⟨⟨ks, c1, c0, kp &&& 0xFE#8, ki, rfl⟩, hlane, hline⟩

theorem foregroundStep_sameButOtherLanes (h : SameButOtherLanes s t) :
    SameButOtherLanes (foregroundStep s) (foregroundStep t) := by
  by_cases hpoll : s.halt = false ∧ s.fgp = .pk
  · obtain ⟨hhalt, hpk⟩ := hpoll
    have hdrained := drainButton_sameButOtherLanes h
    have hpolled : foregroundStep t =
        if pressPending s then onPress (drainButton t) else drainButton t := by
      rw [← pressPending_eq_of_sameButOtherLanes h]
      obtain ⟨⟨_, _, _, _, _, rfl⟩, -, -⟩ := h
      exact foregroundStep_of_pk hhalt hpk
    rw [foregroundStep_of_pk hhalt hpk, hpolled]
    cases pressPending s with
    | true => exact (onPress_blindToLanes (drainButton s)).sameButOtherLanes hdrained
    | false => exact hdrained
  · refine (foregroundStep_blindToLanes ?_).sameButOtherLanes h
    rwa [not_and_or, Bool.not_eq_false] at hpoll

theorem sampleHandler_sameButOtherLanes (h : SameButOtherLanes s t) :
    SameButOtherLanes (sampleHandler s) (sampleHandler t) := by
  have hlevel : t.keyin.getLsbD Config.keyBit = s.keyin.getLsbD Config.keyBit := h.line
  have hlane : laneOf (sampleHandler t) Config.keyBit = laneOf (sampleHandler s) Config.keyBit := by
    rw [laneOf_sampleHandler t (by decide), laneOf_sampleHandler s (by decide), hlevel, h.lane]
  obtain ⟨⟨ks, c1, c0, kp, ki, rfl⟩, -, hline⟩ := h
  exact ⟨⟨_, _, _, _, ki, rfl⟩, hlane, hline⟩

theorem takeSample_sameButOtherLanes (h : SameButOtherLanes s t) :
    SameButOtherLanes (takeInterrupt .sample s) (takeInterrupt .sample t) := by
  have hgate : irqOpen .sample t = irqOpen .sample s := by
    obtain ⟨⟨_, _, _, _, _, rfl⟩, -, -⟩ := h
    rfl
  cases hopen : irqOpen .sample s with
  | false =>
    rw [takeInterrupt_of_closed hopen, takeInterrupt_of_closed (hgate.trans hopen)]
    exact h
  | true =>
    rw [takeInterrupt_of_open hopen, takeInterrupt_of_open (hgate.trans hopen)]
    exact sampleHandler_sameButOtherLanes h

/-- The watch looks at the button's line alone (R164), so it fires on both sides or on neither. -/
theorem pinChange_sameButOtherLanes (e : Config.WakeEdge) {v w : KeyVec}
    (h : SameButOtherLanes s t) (hvw : buttonLine v = buttonLine w) :
    SameButOtherLanes (pinChange e v s) (pinChange e w t) := by
  have hmoved : SameButOtherLanes { s with keyin := v } { t with keyin := w } := by
    obtain ⟨⟨ks, c1, c0, kp, ki, rfl⟩, hlane, -⟩ := h
    exact ⟨⟨ks, c1, c0, kp, w, rfl⟩, hlane, hvw.symm⟩
  have hgate : irqOpen .wake { t with keyin := w } = irqOpen .wake { s with keyin := v } := by
    obtain ⟨⟨_, _, _, _, _, rfl⟩, -, -⟩ := h
    rfl
  have hwakes : BlindToLanes wakeBlock { s with keyin := v } := fun _ _ _ _ _ => rfl
  rw [pinChange, pinChange, h.line, ← hvw]
  cases edgeMatches e (buttonLine s.keyin) (buttonLine v) with
  | false => exact hmoved
  | true =>
    cases hopen : irqOpen .wake { s with keyin := v } with
    | false =>
      simpa [takeInterrupt_of_closed hopen, takeInterrupt_of_closed (hgate.trans hopen)] using hmoved
    | true =>
      simpa [takeInterrupt_of_open hopen, takeInterrupt_of_open (hgate.trans hopen), irqHandler]
        using hwakes.sameButOtherLanes hmoved

/-- `RESET` gives every lane the same value and leaves the lines. -/
theorem resetBlock_sameButOtherLanes (h : SameButOtherLanes s t) :
    SameButOtherLanes (resetBlock s) (resetBlock t) := by
  obtain ⟨⟨ks, c1, c0, kp, ki, rfl⟩, -, hline⟩ := h
  exact ⟨⟨0#8, 0#8, 0#8, 0#8, ki, rfl⟩, rfl, hline⟩

end Related

/-! ### Every external event -/

theorem exec_sameButOtherLanes {e : Instr} {s t : State} (hext : e.eventClass = .external)
    (h : SameButOtherLanes s t) :
    ∃ s' t', exec e s = .next s' ∧ exec e t = .next t' ∧ SameButOtherLanes s' t' := by
  cases e with
  | reset => exact ⟨_, _, rfl, rfl, resetBlock_sameButOtherLanes h⟩
  | pin v => exact ⟨_, _, rfl, rfl, pinChange_sameButOtherLanes _ h rfl⟩
  | sample => exact ⟨_, _, rfl, rfl, takeSample_sameButOtherLanes h⟩
  | tclk => exact ⟨_, _, rfl, rfl, (countStrobe_blindToLanes s).sameButOtherLanes h⟩
  | fg => exact ⟨_, _, rfl, rfl, foregroundStep_sameButOtherLanes h⟩
  | pollclr | arm | stop | write | enter | ontick | onpress | park | parkgo | wake => cases hext

/-- Settles O38: a case per event, and for two `PIN`s the button's line decides. -/
theorem otherLanesCannotInterfere : Obligations.OtherLanesCannotInterfere := by
  rintro e f s t hext h (rfl | ⟨v, w, rfl, rfl, hvw⟩)
  · exact exec_sameButOtherLanes hext h
  · exact ⟨_, _, rfl, rfl, pinChange_sameButOtherLanes _ h hvw⟩

end Sys2Proof.Machine
end

section
/-!
PROOFS. The mode timer (`43_mode_timer.md` R140 to R145): what `ARM`, `STOP` and `TCLK` answer, which
instructions start a stopped timer and at which count, and the counts of an armed timer as remainders
modulo its period.
-/

namespace Sys2Proof.Machine

/-! ### The meanings of the instructions of this family -/

@[simp] theorem exec_arm (p : TimerVal) (s : State) : exec (.arm p) s = .next (armTimer p s) := rfl
@[simp] theorem exec_stop (s : State) : exec .stop s = .next (stopTimer s) := rfl
@[simp] theorem exec_tclk (s : State) : exec .tclk s = .next (countStrobe s) := rfl

/-! ### `ARM` (R140) -/

/-- The operand field stands in the low sixteen bits of the word (R80). -/
theorem eventWord_eq_or_setWidth (op : BitVec 4) (imm : BitVec 16) :
    eventWord op imm = eventWord op 0#16 ||| imm.setWidth 24 := by
  apply BitVec.eq_of_getLsbD_eq
  intro k hk
  rw [BitVec.getLsbD_or, getLsbD_eventWord, getLsbD_eventWord]
  by_cases himm : k < 16
  · simp [himm, hk]
  · simp [himm, imm.getLsbD_of_ge k (by omega)]

theorem encode_arm (p : TimerVal) : encode (.arm p) = 0x600000#24 ||| p.setWidth 24 :=
  eventWord_eq_or_setWidth 0x6#4 p

/-- Settles O9: the writes are `armTimer`'s, the word is the encoding, and R84 refuses period 0. -/
theorem armStartsTimer : Obligations.ArmStartsTimer := by
  refine fun p s => ⟨rfl, fun hp => ?_, fun lvl => ?_⟩
  · rw [← encode_arm]
    exact decode_unit_encode (bne_iff_ne.2 hp)
  · exact decode_of_decodeRow_error lvl rfl decodeRow_arm_zero

/-! ### The gate of `TCLK` (R144) -/

theorem tclkGate_eq_true_iff (s : State) :
    tclkGate s = true ↔ s.ten = true ∧ s.halt = false := by
  simp [tclkGate]

theorem tclkGate_eq_false_iff (s : State) :
    tclkGate s = false ↔ s.ten = false ∨ s.halt = true := by
  rw [← Bool.not_eq_true, tclkGate_eq_true_iff, not_and_or, Bool.not_eq_true, Bool.not_eq_false]

theorem exec_tclk_of_gated {s : State} (h : s.ten = false ∨ s.halt = true) :
    exec .tclk s = .next s := by
  rw [exec_tclk, countStrobe_of_closed ((tclkGate_eq_false_iff s).2 h)]

/-- Settles O11: the gate closed, and open with and without a match. -/
theorem tclkCountsAndTicks : Obligations.TclkCountsAndTicks := by
  refine fun s => ⟨exec_tclk_of_gated, fun hten hhalt hmatch => ?_, fun hten hhalt hmatch => ?_,
    decode_encode_of_external (i := .tclk) rfl .top⟩
  · rw [exec_tclk, countStrobe_of_match ((tclkGate_eq_true_iff s).2 ⟨hten, hhalt⟩) hmatch]
    rfl
  · rw [exec_tclk, countStrobe_of_no_match ((tclkGate_eq_true_iff s).2 ⟨hten, hhalt⟩) hmatch]

/-! ### Starting a stopped timer (R140, R142) -/

/-- A press stops the timer, so it leaves count 0 even where it arms no period (R104). -/
theorem onPress_tcnt (s : State) : (onPress s).tcnt = 0#16 := by
  obtain ⟨-, h⟩ | ⟨-, h⟩ | ⟨-, h⟩ | ⟨-, h⟩ := onPress_cases s <;> rw [h]

/-- If the timer is stopped in `s` and runs in `t`, its count in `t` is 0. -/
def StartsAtZero (s t : State) : Prop := s.ten = false → t.ten = true → t.tcnt = 0#16

theorem startsAtZero_of_ten_eq {s t : State} (h : t.ten = s.ten) : StartsAtZero s t := by
  intro hstopped hstarted
  simp [h, hstopped] at hstarted

theorem enterMode_startsAtZero (m : Mode) (s : State) : StartsAtZero s (enterMode m s) := by
  cases m with
  | sweep | alternate | flash => exact fun _ _ => rfl
  | suspended => exact startsAtZero_of_ten_eq rfl

theorem onTick_startsAtZero (s : State) : StartsAtZero s (onTick s) := by
  cases hmode : s.mode with
  | sweep => rw [onTick_sweep hmode]; exact startsAtZero_of_ten_eq rfl
  | alternate => rw [onTick_toggle (.inl hmode)]; exact startsAtZero_of_ten_eq rfl
  | flash => rw [onTick_toggle (.inr hmode)]; exact startsAtZero_of_ten_eq rfl
  | suspended => rw [onTick_suspended hmode]; exact fun _ _ => rfl

theorem foregroundStep_startsAtZero (s : State) : StartsAtZero s (foregroundStep s) := by
  obtain ⟨-, h⟩ | ⟨-, -, -, h⟩ | ⟨-, -, -, h⟩ | ⟨-, -, -, h⟩ | ⟨-, -, -, h⟩ | ⟨-, -, h⟩ | ⟨-, -, h⟩ :=
    foregroundStep_cases s <;> rw [h]
  · exact startsAtZero_of_ten_eq rfl
  · exact startsAtZero_of_ten_eq rfl
  · exact onTick_startsAtZero s
  · exact startsAtZero_of_ten_eq rfl
  · exact fun _ _ => onPress_tcnt _
  · exact startsAtZero_of_ten_eq rfl
  · exact startsAtZero_of_ten_eq rfl

theorem exec_startsAtZero {i : Instr} {s t : State} (hexec : exec i s = .next t) :
    StartsAtZero s t := by
  cases i with
  | reset | arm => cases hexec; exact fun _ _ => rfl
  | stop => cases hexec; exact fun _ hstarted => absurd hstarted Bool.false_ne_true
  | fg => cases hexec; exact foregroundStep_startsAtZero s
  | enter m => cases hexec; exact enterMode_startsAtZero m s
  | ontick => cases hexec; exact onTick_startsAtZero s
  | onpress => cases hexec; exact fun _ _ => onPress_tcnt s
  | pin | sample | tclk =>
    obtain ⟨-, -, -, -, -, hten, -⟩ := exec_sameForegroundRegisters rfl hexec nofun nofun
    exact startsAtZero_of_ten_eq hten
  | pollclr | write | park | parkgo | wake => cases hexec; exact startsAtZero_of_ten_eq rfl

/-- An instruction whose rule does not run `ARM` leaves a stopped timer stopped. -/
theorem armsTimer_of_starts {i : Instr} {s t : State} (hstopped : s.ten = false)
    (hexec : exec i s = .next t) (hstarted : t.ten = true) :
    (∃ p, i = .arm p) ∨ (∃ m, i = .enter m) ∨ i = .ontick ∨ i = .onpress ∨ i = .fg ∨ i = .reset := by
  have hmoved : t.ten ≠ s.ten := by simp [hstopped, hstarted]
  cases i with
  | reset | fg | arm | enter | ontick | onpress => simp
  | pin | sample | tclk =>
    obtain ⟨-, -, -, -, -, hten, -⟩ := exec_sameForegroundRegisters rfl hexec nofun nofun
    exact absurd hten hmoved
  | stop => cases hexec; exact absurd hstarted Bool.false_ne_true
  | pollclr | write | park | parkgo | wake => cases hexec; exact absurd rfl hmoved

/-- Settles O10: `STOP`'s writes are fixed values, the gate is closed, and a case per instruction. -/
theorem stopStopsTimer : Obligations.StopStopsTimer := by
  refine ⟨decode_unit_encode (i := .stop) rfl, ?_, fun _ hstopped => exec_tclk_of_gated (.inl hstopped),
    fun i s t hstopped hexec hstarted => ⟨exec_startsAtZero hexec hstopped hstarted,
      armsTimer_of_starts hstopped hexec hstarted⟩⟩
  rintro s _ rfl
  exact ⟨rfl, rfl⟩

/-! ### Counting an armed timer (R141, R145) -/

theorem dvd_succ_iff_mod_succ_eq {p : Nat} (hp : 0 < p) (n : Nat) : p ∣ n + 1 ↔ n % p + 1 = p := by
  cases p with
  | zero => exact absurd hp (Nat.lt_irrefl 0)
  | succ q => rw [Nat.dvd_iff_mod_eq_zero, Nat.succ_mod_succ_eq_zero_iff, Nat.add_left_inj]

theorem mod_succ_of_not_dvd {p : Nat} (hp : 0 < p) {n : Nat} (h : ¬p ∣ n + 1) :
    (n + 1) % p = n % p + 1 := by
  have hne : n % p + 1 ≠ p := mt (dvd_succ_iff_mod_succ_eq hp n).2 h
  have hrem : n % p < p := Nat.mod_lt n hp
  rw [← Nat.mod_add_mod, Nat.mod_eq_of_lt (by omega)]

/-- The first multiple of the period is the period itself. -/
theorem le_succ_iff_le_or_dvd {p n : Nat} : p ≤ n + 1 ↔ p ≤ n ∨ p ∣ n + 1 := by
  constructor
  · intro h
    obtain rfl | hlt := Nat.eq_or_lt_of_le h
    · exact .inr (Nat.dvd_refl _)
    · exact .inl (Nat.le_of_lt_succ hlt)
  · rintro (h | h)
    · exact Nat.le_succ_of_le h
    · exact Nat.le_of_dvd n.succ_pos h

/-- `s` after `n` counts of its timer from 0: the count is `n` modulo the period, and the tick flag is
raised once a whole period is over. -/
def countedState (s : State) (n : Nat) : State :=
  { s with
    tcnt := BitVec.ofNat 16 (n % s.tcmp.toNat)
    tick := s.tick || decide (s.tcmp.toNat ≤ n) }

section Counting

variable {s : State} {n : Nat}

/-- The incremented count equals the threshold exactly at the multiples of the period (R141). -/
theorem tcnt_succ_eq_tcmp_iff (hperiod : 0 < s.tcmp.toNat)
    (hcount : s.tcnt = BitVec.ofNat 16 (n % s.tcmp.toNat)) :
    s.tcnt + 1#16 = s.tcmp ↔ s.tcmp.toNat ∣ n + 1 := by
  have hrem : n % s.tcmp.toNat < s.tcmp.toNat := Nat.mod_lt n hperiod
  have hwidth : s.tcmp.toNat < 2 ^ 16 := s.tcmp.isLt
  calc s.tcnt + 1#16 = s.tcmp
    _ ↔ n % s.tcmp.toNat + 1 = s.tcmp.toNat := by
      rw [hcount, ← BitVec.ofNat_add, ← BitVec.toNat_inj, BitVec.toNat_ofNat,
        Nat.mod_eq_of_lt (by omega)]
    _ ↔ s.tcmp.toNat ∣ n + 1 := (dvd_succ_iff_mod_succ_eq hperiod n).symm

/-- One count of a running timer whose count is `n` modulo its period. -/
theorem countStrobe_of_tcnt_eq_mod (hopen : tclkGate s = true) (hperiod : 0 < s.tcmp.toNat)
    (hcount : s.tcnt = BitVec.ofNat 16 (n % s.tcmp.toNat)) :
    countStrobe s = { s with
      tcnt := BitVec.ofNat 16 ((n + 1) % s.tcmp.toNat)
      tick := s.tick || decide (s.tcmp.toNat ∣ n + 1) } := by
  have hmatch := tcnt_succ_eq_tcmp_iff hperiod hcount
  by_cases hmultiple : s.tcmp.toNat ∣ n + 1
  · rw [countStrobe_of_match hopen (hmatch.2 hmultiple)]
    simp [timerHandler, hmultiple, Nat.mod_eq_zero_of_dvd]
  · rw [countStrobe_of_no_match hopen (mt hmatch.1 hmultiple), hcount,
      mod_succ_of_not_dvd hperiod hmultiple, BitVec.ofNat_add]
    simp [hmultiple]

theorem countedState_zero (hzero : s.tcnt = 0#16) (hperiod : 0 < s.tcmp.toNat) :
    countedState s 0 = s := by
  have hbefore : ¬s.tcmp.toNat ≤ 0 := Nat.not_le.2 hperiod
  simp [countedState, hbefore, ← hzero]

theorem countStrobe_countedState (hopen : tclkGate s = true) (hperiod : 0 < s.tcmp.toNat) :
    countStrobe (countedState s n) = countedState s (n + 1) := by
  rw [countStrobe_of_tcnt_eq_mod (s := countedState s n) hopen hperiod rfl]
  have htick : (s.tick || decide (s.tcmp.toNat ≤ n) || decide (s.tcmp.toNat ∣ n + 1)) =
      (s.tick || decide (s.tcmp.toNat ≤ n + 1)) := by
    simp [le_succ_iff_le_or_dvd (n := n), Bool.or_assoc]
  exact congrArg (fun tick => { countedState s (n + 1) with tick }) htick

theorem iterate_countStrobe (hopen : tclkGate s = true) (hzero : s.tcnt = 0#16)
    (hperiod : 0 < s.tcmp.toNat) (n : Nat) : countStrobe^[n] s = countedState s n := by
  induction n with
  | zero => exact (countedState_zero hzero hperiod).symm
  | succ n ih => rw [Function.iterate_succ_apply', ih, countStrobe_countedState hopen hperiod]

end Counting

/-- Settles O12: `n` counts of the armed timer by induction, and one more with the flag cleared. -/
theorem ticksComeEveryPeriod : Obligations.TicksComeEveryPeriod := by
  intro p s hp hhalt
  have hopen : tclkGate (armTimer p s) = true := (tclkGate_eq_true_iff _).2 ⟨rfl, hhalt⟩
  have hperiod : 0 < p.toNat := BitVec.toNat_pos_of_ne_zero hp
  refine ⟨armTimer p s, exec_arm p s, fun n => ⟨countedState (armTimer p s) n, ?_, rfl, _,
    exec_tclk _, ?_⟩⟩
  · rw [runEvents_replicate exec_tclk, iterate_countStrobe hopen rfl hperiod]
  · have hnext := countStrobe_of_tcnt_eq_mod (n := n)
      (s := { countedState (armTimer p s) n with tick := false }) hopen hperiod rfl
    exact (congrArg State.tick hnext).trans (Bool.false_or _)

end Sys2Proof.Machine
end

section
/-!
PROOFS. The suspend controller (`44_suspend_controller.md` R160 to R168): when the watch fires, which
instructions move `WAKE_EN`, what the invariants say of the settle delay and of the halt, and what each
external event does to a halted block.
-/

namespace Sys2Proof.Machine

open Safety

/-! ### The meanings of the instructions of this family -/

@[simp] theorem exec_park (s : State) : exec .park s = .next (parkBlock s) := rfl
@[simp] theorem exec_parkgo (s : State) : exec .parkgo s = .next (parkGoBlock s) := rfl
@[simp] theorem exec_wake (s : State) : exec .wake s = .next (wakeBlock s) := rfl

theorem encode_pin (v : KeyVec) : encode (.pin v) = 0x100000#24 ||| v.setWidth 24 :=
  eventWord_setWidth_eight 0x1#4 v

/-! ### When the watch fires (R164) -/

/-- The watch is armed, interrupts are enabled, and the change of the lines to `v` moves the button line
in a way that matches `e` (R164). -/
structure WatchFires (e : Config.WakeEdge) (v : KeyVec) (s : State) : Prop where
  armed : s.wakeEn = true
  enabled : s.ie = true
  edge : edgeMatches e (buttonLine s.keyin) (buttonLine v) = true

section Watch

variable {e : Config.WakeEdge} {v : KeyVec} {s : State}

theorem pinChange_of_fires (h : WatchFires e v s) :
    pinChange e v s = { s with keyin := v, wakeEn := false, halt := false } := by
  simpa [h.armed, h.enabled, h.edge] using pinChange_cases e v s

theorem pinChange_of_not_fires (h : ¬WatchFires e v s) :
    pinChange e v s = { s with keyin := v } := by
  obtain ⟨harmed, hie, hedge, -⟩ | ⟨-, hquiet⟩ := pinChange_cases e v s
  · exact absurd ⟨harmed, hie, hedge⟩ h
  · exact hquiet

theorem watchFires_iff :
    WatchFires e v s ↔ s.wakeEn = true ∧ s.ie = true ∧
      edgeMatches e (buttonLine s.keyin) (buttonLine v) = true :=
  ⟨fun ⟨harmed, hie, hedge⟩ => ⟨harmed, hie, hedge⟩, fun ⟨harmed, hie, hedge⟩ => ⟨harmed, hie, hedge⟩⟩

end Watch

theorem pinChange_keyin (e : Config.WakeEdge) (v : KeyVec) (s : State) :
    (pinChange e v s).keyin = v := by
  obtain ⟨-, -, -, hwakes⟩ | ⟨-, hquiet⟩ := pinChange_cases e v s
  · rw [hwakes]
  · rw [hquiet]

theorem edgeMatches_iff (e : Config.WakeEdge) (old new : Bool) :
    edgeMatches e old new = true ↔
      (e = .any ∧ old ≠ new) ∨ (e = .falling ∧ old = true ∧ new = false) ∨
        (e = .rising ∧ old = false ∧ new = true) := by
  cases e <;> simp [edgeMatches]

/-- Settles O28: both sides of `WatchFires`, with `edgeMatches` spelled out for each edge. -/
theorem pinMovesLinesAndWakes : Obligations.PinMovesLinesAndWakes := by
  refine ⟨fun v => ?_, exec_pin, ?_⟩
  · rw [← encode_pin]
    exact decode_encode_of_external rfl .top
  · rintro edge v s _ _ rfl rfl fires hfires
    have hwatch : fires ↔ WatchFires edge v s := by
      rw [hfires, watchFires_iff, edgeMatches_iff]
      rfl
    rw [hwatch]
    exact ⟨pinChange_of_fires, pinChange_of_not_fires⟩

/-! ### What moves `WAKE_EN` (R166) -/

theorem enterMode_wakeEn (m : Mode) (s : State) : (enterMode m s).wakeEn = s.wakeEn := by
  cases m <;> rfl

theorem onTick_wakeEn (s : State) : (onTick s).wakeEn = s.wakeEn := by
  cases hmode : s.mode with
  | sweep => rw [onTick_sweep hmode]; rfl
  | alternate => rw [onTick_toggle (.inl hmode)]
  | flash => rw [onTick_toggle (.inr hmode)]
  | suspended => rw [onTick_suspended hmode, enterMode_wakeEn]

theorem onPress_wakeEn (s : State) : (onPress s).wakeEn = s.wakeEn := enterMode_wakeEn _ _

/-- The foreground moves `WAKE_EN` only where it runs `PARKGO`, at the end of the settle delay. -/
theorem foregroundStep_moves_wakeEn {s : State}
    (hmoved : (foregroundStep s).wakeEn ≠ s.wakeEn) :
    s.fgp = .pd ∧ (foregroundStep s).wakeEn = true := by
  obtain ⟨-, h⟩ | ⟨-, -, -, h⟩ | ⟨-, -, -, h⟩ | ⟨-, -, -, h⟩ | ⟨-, -, -, h⟩ | ⟨-, hpd, h⟩ | ⟨-, -, h⟩ :=
    foregroundStep_cases s <;> rw [h] at hmoved ⊢
  · exact absurd rfl hmoved
  · exact absurd rfl hmoved
  · exact absurd (onTick_wakeEn s) hmoved
  · exact absurd rfl hmoved
  · exact absurd (onPress_wakeEn _) hmoved
  · exact ⟨hpd, rfl⟩
  · exact absurd rfl hmoved

theorem takeSample_wakeEn (s : State) : (takeInterrupt .sample s).wakeEn = s.wakeEn := by
  obtain ⟨-, hclosed⟩ | ⟨-, -, hopen⟩ := takeSample_cases s
  · rw [hclosed]
  · rw [hopen, sampleHandler_wakeEn]

theorem countStrobe_wakeEn (s : State) : (countStrobe s).wakeEn = s.wakeEn := by
  obtain ⟨-, h⟩ | ⟨-, -, -, h⟩ | ⟨-, -, -, h⟩ := countStrobe_cases s <;> rw [h]

theorem pinChange_moves_wakeEn {e : Config.WakeEdge} {v : KeyVec} {s : State}
    (hmoved : (pinChange e v s).wakeEn ≠ s.wakeEn) : (pinChange e v s).wakeEn = false := by
  obtain ⟨-, -, -, hwakes⟩ | ⟨-, hquiet⟩ := pinChange_cases e v s
  · rw [hwakes]
  · exact absurd (congrArg State.wakeEn hquiet) hmoved

/-- Every way `WAKE_EN` moves: `PARKGO` sets it, as such or run by the foreground; `RESET`, a `PIN` and
`WAKE` clear it. -/
theorem exec_moves_wakeEn {i : Instr} {s t : State} (hexec : exec i s = .next t)
    (hmoved : t.wakeEn ≠ s.wakeEn) :
    (t.wakeEn = true ∧ (i = .parkgo ∨ (i = .fg ∧ s.fgp = .pd))) ∨
    (t.wakeEn = false ∧ (i = .reset ∨ (∃ k, i = .pin k) ∨ i = .wake)) := by
  cases i with
  | parkgo => cases hexec; exact .inl ⟨rfl, .inl rfl⟩
  | fg =>
    cases hexec
    obtain ⟨hpd, harmed⟩ := foregroundStep_moves_wakeEn hmoved
    exact .inl ⟨harmed, .inr ⟨rfl, hpd⟩⟩
  | reset => cases hexec; exact .inr ⟨rfl, .inl rfl⟩
  | pin v => cases hexec; exact .inr ⟨pinChange_moves_wakeEn hmoved, .inr (.inl ⟨v, rfl⟩)⟩
  | wake => cases hexec; exact .inr ⟨rfl, .inr (.inr rfl)⟩
  | sample => cases hexec; exact absurd (takeSample_wakeEn s) hmoved
  | tclk => cases hexec; exact absurd (countStrobe_wakeEn s) hmoved
  | enter m => cases hexec; exact absurd (enterMode_wakeEn m s) hmoved
  | ontick => cases hexec; exact absurd (onTick_wakeEn s) hmoved
  | onpress => cases hexec; exact absurd (onPress_wakeEn s) hmoved
  | pollclr | arm | stop | write | park => cases hexec; exact absurd rfl hmoved

theorem armsWatch_of_sets {i : Instr} {s t : State} (hexec : exec i s = .next t)
    (hbefore : s.wakeEn = false) (hafter : t.wakeEn = true) :
    i = .parkgo ∨ (i = .fg ∧ s.fgp = .pd) := by
  obtain ⟨-, harms⟩ | ⟨hcleared, -⟩ := exec_moves_wakeEn hexec (by simp [hbefore, hafter])
  · exact harms
  · exact absurd (hcleared.symm.trans hafter) Bool.false_ne_true

/-- `WAKE` itself is no external event: outside the block only `RESET` and `PIN` disarm the watch. -/
theorem disarmsWatch_of_clears {e : Instr} {s t : State} (hext : e.eventClass = .external)
    (hexec : exec e s = .next t) (hbefore : s.wakeEn = true) (hafter : t.wakeEn = false) :
    e = .reset ∨ ∃ k, e = .pin k := by
  obtain ⟨hset, -⟩ | ⟨-, hreset | hpin | rfl⟩ :=
    exec_moves_wakeEn hexec (by simp [hbefore, hafter])
  · exact absurd (hafter.symm.trans hset) Bool.false_ne_true
  · exact .inl hreset
  · exact .inr hpin
  · cases hext

/-- Settles O27: the disarmed watch is quiet, `FG` goes on at `PW`, and the ways `WAKE_EN` moves. -/
theorem wakeDisarmsWatch : Obligations.WakeDisarmsWatch := by
  refine ⟨decode_unit_encode (i := .wake) rfl, ?_⟩
  rintro s t rfl
  refine ⟨rfl, fun v => ?_, fun hpw => ?_, fun i u v => armsWatch_of_sets,
    fun e u v => disarmsWatch_of_clears⟩
  · rw [exec_pin, pinChange_of_wakeEn_false rfl]
  · rw [exec_fg, foregroundStep_of_pw rfl hpw]

/-- Settles O26: the foreground is held by `HALT`, and the armed watch fires on any change (R162). -/
theorem parkgoArmsAndHalts : Obligations.ParkgoArmsAndHalts := by
  refine ⟨decode_unit_encode (i := .parkgo) rfl, ?_⟩
  intro s t ht
  obtain rfl : t = parkGoBlock s := ht
  refine ⟨rfl, ?_, fun v hchanged => ?_⟩
  · rw [exec_fg, foregroundStep_of_halt rfl]
  · rw [exec_pin, pinChange_wakes_of_changed (s := parkGoBlock s) rfl rfl hchanged]

/-! ### The settle delay (R161, R237) -/

theorem halt_eq_false_of_pd {s : State} (hpower : PowerInv s) (hpd : s.fgp = .pd) :
    s.halt = false := by
  refine Bool.eq_false_iff.2 fun hhalt => ?_
  have hpw : s.fgp = .pw := hpower.haltParked hhalt
  cases hpd.symm.trans hpw

theorem wakeEn_eq_halt {s : State} (hpower : PowerInv s) : s.wakeEn = s.halt :=
  Bool.eq_iff_iff.2 hpower.haltWatched.symm

/-- Settles O25: in the delay the block is awake (R237), so the watch is disarmed too, and `IE = 0`. -/
theorem parkStartsDeafDelay : Obligations.ParkStartsDeafDelay := by
  refine ⟨decode_unit_encode (i := .park) rfl, exec_park, fun s hinv hpd => ?_⟩
  obtain ⟨hsuspended, hdark, hten, htcnt, htick⟩ := hinv.park.parked (.inl hpd)
  have hawake : s.halt = false := halt_eq_false_of_pd hinv.power hpd
  have hdisarmed : s.wakeEn = false := (wakeEn_eq_halt hinv.power).trans hawake
  have hdeaf : s.ie = false := hinv.power.deafInDelay.2 hpd
  refine ⟨hawake, hsuspended, hdark, hten, htcnt, htick, ?_, exec_tclk_of_gated (.inl hten),
    fun v => ?_⟩
  · rw [exec_sample, takeSample_of_closed (.inr hdeaf)]
  · rw [exec_pin, pinChange_of_wakeEn_false hdisarmed]

/-! ### The halt (R167, R168) -/

/-- The held foreground and the two gated clocks (R167). -/
theorem exec_of_halt {e : Instr} {s : State} (hhalt : s.halt = true)
    (hheld : e = .fg ∨ e = .sample ∨ e = .tclk) : exec e s = .next s := by
  obtain rfl | rfl | rfl := hheld
  · rw [exec_fg, foregroundStep_of_halt hhalt]
  · rw [exec_sample, takeSample_of_closed (.inl hhalt)]
  · exact exec_tclk_of_gated (.inr hhalt)

theorem dark_and_stopped_of_halt {s : State} (hinv : Inv s) (hhalt : s.halt = true) :
    s.led = Config.allOff ∧ s.ten = false := by
  have hpw : s.fgp = .pw := hinv.power.haltParked hhalt
  obtain ⟨-, hdark, hten, -⟩ := hinv.park.parked (.inr hpw)
  exact ⟨hdark, hten⟩

/-- Settles O29: the held events, and the registers that a `PIN` leaves to the foreground. -/
theorem haltStopsForegroundAndClocks : Obligations.HaltStopsForegroundAndClocks := by
  intro s hhalt
  refine ⟨exec_of_halt hhalt (.inl rfl), exec_of_halt hhalt (.inr (.inl rfl)),
    exec_of_halt hhalt (.inr (.inr rfl)), fun hinv => dark_and_stopped_of_halt hinv hhalt,
    fun v => ?_, ⟨_, exec_reset s, rfl⟩⟩
  obtain ⟨-, -, -, hled, -⟩ := pinChange_sameForegroundRegisters .any v s
  exact ⟨_, exec_pin v s, rfl, pinChange_keyin .any v s, hled⟩

/-- Everything an external event can do to a halted block (R168): `RESET` starts it again, the watch
wakes it, or it stays halted and at most the lines move. -/
theorem exec_of_halt_cases {e : Instr} {s t : State} (hext : e.eventClass = .external)
    (hhalt : s.halt = true) (hexec : exec e s = .next t) :
    (e = .reset ∧ t.halt = false) ∨
    (∃ v, e = .pin v ∧ WatchFires Config.wakeEdge v s ∧
      t = { s with keyin := v, wakeEn := false, halt := false }) ∨
    (∃ v, t = { s with keyin := v }) := by
  cases e with
  | reset => cases hexec; exact .inl ⟨rfl, rfl⟩
  | pin v =>
    cases hexec
    by_cases hfires : WatchFires Config.wakeEdge v s
    · exact .inr (.inl ⟨v, rfl, hfires, pinChange_of_fires hfires⟩)
    · exact .inr (.inr ⟨v, pinChange_of_not_fires hfires⟩)
  | sample | tclk | fg =>
    cases (exec_of_halt hhalt (by simp)).symm.trans hexec
    exact .inr (.inr ⟨s.keyin, rfl⟩)
  | pollclr | arm | stop | write | enter | ontick | onpress | park | parkgo | wake => cases hext

/-- Settles O30: of the three outcomes only the last one leaves the block halted. -/
theorem onlyWakeOrResetLiftsHalt : Obligations.OnlyWakeOrResetLiftsHalt := by
  intro e s t hext hhalt hexec
  obtain ⟨hreset, hlifted⟩ | ⟨v, hpin, ⟨harmed, hie, hedge⟩, rfl⟩ | ⟨v, rfl⟩ :=
    exec_of_halt_cases hext hhalt hexec
  · exact ⟨fun hkept => absurd (hlifted.symm.trans hkept) Bool.false_ne_true, fun _ => .inl hreset⟩
  · exact ⟨nofun, fun _ => .inr ⟨v, hpin, harmed, hie, hedge, rfl⟩⟩
  · exact ⟨fun _ => ⟨v, rfl⟩, fun hlifted => absurd (hlifted.symm.trans hhalt) Bool.false_ne_true⟩

end Sys2Proof.Machine
end

section
/-!
PROOFS. The display driver (`45_display_driver_gpio.md` R180): `WRITE` is the driver's one write of all
eight lines, and its word carries the pattern in the low bits.
-/

namespace Sys2Proof.Machine

@[simp] theorem exec_write (p : Pattern) (s : State) : exec (.write p) s = .next (writeLed p s) := rfl

/-- The driver replaces the eight lines together and reads none of them (R180). -/
theorem writeLed_eq (p : Pattern) (s : State) : writeLed p s = { s with led := p } := rfl

theorem encode_write (p : Pattern) : encode (.write p) = 0x800000#24 ||| p.setWidth 24 :=
  eventWord_setWidth_eight 0x8#4 p

/-- Settles O13: the write is `writeLed`'s in every state, and the word is the encoding. -/
theorem writeDrivesAllLines : Obligations.WriteDrivesAllLines := by
  refine fun p s => ⟨?_, ?_⟩
  · rw [exec_write, writeLed_eq]
  · rw [← encode_write]
    exact decode_unit_encode rfl

end Sys2Proof.Machine
end

section
/-!
PROOFS. The foreground sequencer (`46_foreground_sequencer.md` R190 to R194): the step of each phase, and
how long a pending press can wait while the loop runs.
-/

namespace Sys2Proof.Machine

open Safety

variable {s : State}

/-! ### The step of each phase (R190) -/

/-- With no press of the button pending the poll clears nothing and only leaves `PK`. -/
theorem drainButton_of_quiet (hpress : pressPending s = false) :
    drainButton s = { s with fgp := .pt } := by
  have hzero : Config.keyMask &&& s.keyPress = 0#8 := (pollClear_keyMask_eq_zero_iff s).2 hpress
  have hkept : pollClear Config.keyMask { s with fgp := .pt } = (0#8, { s with fgp := .pt }) :=
    pollClear_of_drained hzero
  calc drainButton s
    _ = (pollClear Config.keyMask { s with fgp := .pt }).2 :=
        (pollClear_state Config.keyMask { s with fgp := .pt }).symm
    _ = { s with fgp := .pt } := congrArg Prod.snd hkept

/-- Settles O32: the equation of each phase. -/
theorem fgStepsItsPhase : Obligations.FgStepsItsPhase := by
  refine ⟨decode_encode_of_external (i := .fg) rfl .top, fun s => ?_⟩
  simp only [exec_fg, exec_ontick, exec_onpress]
  refine ⟨fun hhalt => ?_, fun hhalt hpt htick => ?_, fun hhalt hpt htick => ?_,
    fun hhalt hpk hpress => ?_, fun hhalt hpk hpress => ?_, fun hhalt hpd => ?_,
    fun hhalt hpw => ?_⟩
  · rw [foregroundStep_of_halt hhalt]
  · rw [foregroundStep_of_pt_quiet hhalt hpt htick]
  · exact ⟨_, rfl, congrArg _ (foregroundStep_of_pt_tick hhalt hpt htick)⟩
  · rw [foregroundStep_of_pk_quiet hhalt hpk hpress, drainButton_of_quiet hpress]
  · exact ⟨_, rfl, congrArg _ (foregroundStep_of_pk_press hhalt hpk hpress)⟩
  · rw [foregroundStep_of_pd hhalt hpd, parkGoBlock]
  · rw [foregroundStep_of_pw hhalt hpw]

/-! ### A pending press (R194) -/

theorem pressPending_drainButton (s : State) : pressPending (drainButton s) = false :=
  congrArg Lane.pending (laneOf_drainButton s)

theorem pressPending_onPress (s : State) : pressPending (onPress s) = pressPending s :=
  congrArg Lane.pending ((onPress_blindToLanes s).laneOf_eq Config.keyBit)

/-- At `PK` the press is drained before `ONPRESS` runs, which moves `MODE` on and raises no press. -/
theorem foregroundStep_acts_on_press (hhalt : s.halt = false) (hpk : s.fgp = .pk)
    (hpress : pressPending s = true) :
    (foregroundStep s).mode = nextMode s.mode ∧ pressPending (foregroundStep s) = false := by
  have hstep : foregroundStep s = onPress (drainButton s) :=
    foregroundStep_of_pk_press hhalt hpk hpress
  rw [hstep]
  exact ⟨onPress_mode _, (pressPending_onPress _).trans (pressPending_drainButton s)⟩

theorem foregroundStep_fgp_of_pt (hhalt : s.halt = false) (hpt : s.fgp = .pt) :
    (foregroundStep s).fgp = .pk := by
  cases htick : s.tick with
  | false => rw [foregroundStep_of_pt_quiet hhalt hpt htick]
  | true => rw [foregroundStep_of_pt_tick hhalt hpt htick]

/-- At `PT` only the recovery tick moves `MODE`, and that takes the Suspended mode. -/
theorem foregroundStep_mode_of_pt (hpt : s.fgp = .pt) (hrunning : s.mode ≠ .suspended) :
    (foregroundStep s).mode = s.mode := by
  by_contra hmoved
  obtain ⟨hpk, -, -⟩ | ⟨-, -, hsuspended, -⟩ := foregroundStep_mode_cases hmoved
  · exact absurd (hpt.symm.trans hpk) (by decide)
  · exact hrunning hsuspended

/-- The step at `PT` hands the press on to the poll at `PK`: it neither halts nor drains. -/
theorem foregroundStep_keeps_press_of_pt (hhalt : s.halt = false) (hpt : s.fgp = .pt) :
    (foregroundStep s).halt = false ∧ pressPending (foregroundStep s) = pressPending s := by
  have hpasses : PassesSampler foregroundStep s := foregroundStep_passesSampler_of_pt hhalt hpt
  exact ⟨hpasses.halt.trans hhalt, by rw [pressPending, hpasses.keyPress, pressPending]⟩

/-- Settles O33: the poll at `PK` acts on the press, and the step at `PT` leads to it. -/
theorem pendingPressIsActedOn : Obligations.PendingPressIsActedOn := by
  refine fun s hhalt hpress hrunning => ⟨fun hpk => ?_, fun hpt => ?_⟩
  · exact ⟨_, rfl, foregroundStep_acts_on_press hhalt hpk hpress⟩
  · obtain ⟨hhalt', hkept⟩ := foregroundStep_keeps_press_of_pt hhalt hpt
    have hpk' := foregroundStep_fgp_of_pt hhalt hpt
    refine ⟨foregroundStep (foregroundStep s), rfl, ?_⟩
    rw [← foregroundStep_mode_of_pt hpt hrunning]
    exact foregroundStep_acts_on_press hhalt' hpk' (hkept.trans hpress)

end Sys2Proof.Machine
end

section
/-!
PROOFS. No exception and three handlers (`60_exceptions.md` R200, R202, R209, R210): every instruction
answers a next state and leaves what the environment will present alone, and which registers `SAMPLE`,
`TCLK` and `WAKE` write.
-/

namespace Sys2Proof.Machine

/-! ### What the environment will present is not the block's to change (R14, R85) -/

/-- `t` has the events that wait in `s`, on a trace of the same level (log entries 4, 5). -/
structure SameTrace (s t : State) : Prop where
  trace : t.trace = s.trace
  level : t.level = s.level

theorem pinChange_sameTrace (e : Config.WakeEdge) (v : KeyVec) (s : State) :
    SameTrace s (pinChange e v s) := by
  obtain ⟨-, -, -, hwakes⟩ | ⟨-, hquiet⟩ := pinChange_cases e v s
  · rw [hwakes]; exact ⟨rfl, rfl⟩
  · rw [hquiet]; exact ⟨rfl, rfl⟩

theorem takeSample_sameTrace (s : State) : SameTrace s (takeInterrupt .sample s) := by
  obtain ⟨-, hclosed⟩ | ⟨-, -, hopen⟩ := takeSample_cases s
  · rw [hclosed]; exact ⟨rfl, rfl⟩
  · rw [hopen]; exact ⟨rfl, rfl⟩

theorem countStrobe_sameTrace (s : State) : SameTrace s (countStrobe s) := by
  obtain ⟨-, hclosed⟩ | ⟨-, -, -, hticks⟩ | ⟨-, -, -, hcounts⟩ := countStrobe_cases s
  · rw [hclosed]; exact ⟨rfl, rfl⟩
  · rw [hticks]; exact ⟨rfl, rfl⟩
  · rw [hcounts]; exact ⟨rfl, rfl⟩

theorem enterMode_sameTrace (m : Mode) (s : State) : SameTrace s (enterMode m s) := by
  cases m <;> exact ⟨rfl, rfl⟩

theorem onTick_sameTrace (s : State) : SameTrace s (onTick s) := by
  cases hmode : s.mode with
  | sweep => rw [onTick_sweep hmode]; exact ⟨rfl, rfl⟩
  | alternate => rw [onTick_toggle (.inl hmode)]; exact ⟨rfl, rfl⟩
  | flash => rw [onTick_toggle (.inr hmode)]; exact ⟨rfl, rfl⟩
  | suspended => rw [onTick_suspended hmode]; exact ⟨rfl, rfl⟩

theorem onPress_sameTrace (s : State) : SameTrace s (onPress s) := by
  obtain ⟨htrace, hlevel⟩ := enterMode_sameTrace (nextMode s.mode)
    { stopTimer s with tick := false, mode := nextMode s.mode }
  exact ⟨htrace, hlevel⟩

theorem foregroundStep_sameTrace (s : State) : SameTrace s (foregroundStep s) := by
  obtain ⟨-, h⟩ | ⟨-, -, -, h⟩ | ⟨-, -, -, h⟩ | ⟨-, -, -, h⟩ | ⟨-, -, -, h⟩ | ⟨-, -, h⟩ | ⟨-, -, h⟩ :=
    foregroundStep_cases s <;> rw [h]
  · exact ⟨rfl, rfl⟩
  · exact ⟨rfl, rfl⟩
  · obtain ⟨htrace, hlevel⟩ := onTick_sameTrace s
    exact ⟨htrace, hlevel⟩
  · exact ⟨rfl, rfl⟩
  · obtain ⟨htrace, hlevel⟩ := onPress_sameTrace (pollClear Config.keyMask { s with fgp := .pt }).2
    exact ⟨htrace, hlevel⟩
  · exact ⟨rfl, rfl⟩
  · exact ⟨rfl, rfl⟩

/-! ### Every instruction answers (R200) -/

/-- No arm of `exec` faults or refuses. -/
theorem exec_total (i : Instr) (s : State) : ∃ t, exec i s = .next t := by
  cases i <;> exact ⟨_, rfl⟩

theorem exec_sameTrace {i : Instr} {s t : State} (hexec : exec i s = .next t) : SameTrace s t := by
  cases i with
  | pin v => cases hexec; exact pinChange_sameTrace _ v s
  | sample => cases hexec; exact takeSample_sameTrace s
  | tclk => cases hexec; exact countStrobe_sameTrace s
  | fg => cases hexec; exact foregroundStep_sameTrace s
  | enter m => cases hexec; exact enterMode_sameTrace m s
  | ontick => cases hexec; exact onTick_sameTrace s
  | onpress => cases hexec; exact onPress_sameTrace s
  | reset | pollclr | arm | stop | write | park | parkgo | wake => cases hexec; exact ⟨rfl, rfl⟩

theorem exec_answers (i : Instr) (s : State) :
    ∃ t, exec i s = .next t ∧ t.trace = s.trace ∧ t.level = s.level := by
  obtain ⟨t, hexec⟩ := exec_total i s
  obtain ⟨htrace, hlevel⟩ := exec_sameTrace hexec
  exact ⟨t, hexec, htrace, hlevel⟩

/-- A word that a top-level trace admits is an external event, so every trace reads it so (R85). -/
theorem external_of_decode_top {w : EventWord} {i : Instr} (h : decode .top w = .ok i) :
    decode .unit w = .ok i ∧ i.eventClass = .external := by
  obtain ⟨hwf, rfl⟩ := encode_of_decode h
  refine ⟨decode_unit_encode hwf, ?_⟩
  by_contra hnot
  have hrefused := admitAt_top_of_internal (eventClass_eq_internal_of_not_external hnot)
  cases h.symm.trans ((decode_encode hwf .top).trans hrefused)

/-- Settles O8: no arm of `exec` faults, and a top-level word runs its rule at either level. -/
theorem operationsAreInfallible : Obligations.OperationsAreInfallible := by
  refine ⟨exec_answers, fun s w rest i htrace htop => ?_⟩
  obtain ⟨hunit, hext⟩ := external_of_decode_top htop
  rw [step_of_decode_unit htrace hunit (.inr hext)]
  exact exec_answers i { s with trace := rest }

/-! ### What the handlers write (R210) -/

theorem and_not_or_left {w : Nat} (x y : BitVec w) : x &&& ~~~(x ||| y) = 0#w := by
  ext i
  cases hbit : x[i] <;> simp [hbit]

/-- `SAMPLE` writes the debouncer's registers alone, and R124's `KEY_PRESS` equation only sets bits. -/
theorem takeSample_writes (s : State) :
    ∃ ks c1 c0 kp : KeyVec,
      takeInterrupt .sample s = { s with keyState := ks, ct1 := c1, ct0 := c0, keyPress := kp } ∧
      s.keyPress &&& ~~~kp = 0#8 := by
  obtain ⟨-, hclosed⟩ | ⟨-, -, hopen⟩ := takeSample_cases s
  · exact ⟨s.keyState, s.ct1, s.ct0, s.keyPress, hclosed, BitVec.and_not_self _⟩
  · exact ⟨debKeyState s, debCt1 s, debCt0 s, debKeyPress s, hopen, and_not_or_left _ _⟩

/-- `TCLK` writes the count and the tick flag alone, and raises the flag or leaves it. -/
theorem countStrobe_writes (s : State) :
    ∃ (n : TimerVal) (k : Bool),
      countStrobe s = { s with tcnt := n, tick := k } ∧ (s.tick = true → k = true) := by
  obtain ⟨-, hclosed⟩ | ⟨-, -, -, hticks⟩ | ⟨-, -, -, hcounts⟩ := countStrobe_cases s
  · exact ⟨s.tcnt, s.tick, hclosed, id⟩
  · exact ⟨0#16, true, hticks, fun _ => rfl⟩
  · exact ⟨s.tcnt + 1#16, s.tick, hcounts, id⟩

/-- Settles O35: what the three handlers' events write, and `WAKE` is its handler with no gate. -/
theorem handlersTouchOnlyTheirRegisters : Obligations.HandlersTouchOnlyTheirRegisters := by
  refine ⟨fun s => ?_, fun s => ?_, fun s => ?_⟩
  · obtain ⟨ks, c1, c0, kp, hwrites, hsets⟩ := takeSample_writes s
    exact ⟨ks, c1, c0, kp, congrArg _ hwrites, hsets⟩
  · obtain ⟨n, k, hwrites, hraises⟩ := countStrobe_writes s
    exact ⟨n, k, congrArg _ hwrites, hraises⟩
  · rw [exec_wake, wakeBlock]

end Sys2Proof.Machine
end

section
/-!
PROOFS. The three power states (`60_exceptions.md` R217): the table's conditions, what each state does with
the foreground and the clocks, and the events that lead from one to another.
-/

namespace Sys2Proof.Machine

open Safety

/-! ### The conditions of the table -/

section PowerStates

variable {s t : State}

theorem powerState_eq_halted_iff : powerState s = .halted ↔ s.halt = true := by
  cases hhalt : s.halt <;> by_cases hpd : s.fgp = .pd <;> simp [powerState, hhalt, hpd]

theorem powerState_eq_delay_iff : powerState s = .delay ↔ s.halt = false ∧ s.fgp = .pd := by
  cases hhalt : s.halt <;> by_cases hpd : s.fgp = .pd <;> simp [powerState, hhalt, hpd]

theorem powerState_eq_run_iff : powerState s = .run ↔ s.halt = false ∧ s.fgp ≠ .pd := by
  cases hhalt : s.halt <;> by_cases hpd : s.fgp = .pd <;> simp [powerState, hhalt, hpd]

theorem powerState_congr (hhalt : t.halt = s.halt) (hfgp : t.fgp = s.fgp) :
    powerState t = powerState s := by
  rw [powerState, powerState, hhalt, hfgp]

theorem ne_pd_iff (p : Phase) : p ≠ .pd ↔ p = .pt ∨ p = .pk ∨ p = .pw := by
  cases p <;> decide

/-- The table's condition of RUN names the three other phases. -/
theorem run_iff_phases :
    powerState s = .run ↔ s.halt = false ∧ (s.fgp = .pt ∨ s.fgp = .pk ∨ s.fgp = .pw) := by
  rw [powerState_eq_run_iff, ne_pd_iff]

/-- The settle delay is the one phase with interrupts off (R237). -/
theorem delay_iff_deaf (hpower : PowerInv s) :
    powerState s = .delay ↔ s.halt = false ∧ s.fgp = .pd ∧ s.ie = false := by
  rw [powerState_eq_delay_iff, hpower.deafInDelay, and_self]

/-- The block halts only at `PW`, with the watch armed (R237). -/
theorem halted_iff_parked (hpower : PowerInv s) :
    powerState s = .halted ↔ s.halt = true ∧ s.fgp = .pw ∧ s.wakeEn = true := by
  rw [powerState_eq_halted_iff]
  exact ⟨fun hhalt => ⟨hhalt, hpower.haltParked hhalt, hpower.haltWatched.1 hhalt⟩,
    fun ⟨hhalt, _, _⟩ => hhalt⟩

/-! ### RUN -/

theorem onPress_fgp (s : State) : (onPress s).fgp = s.fgp ∨ (onPress s).fgp = .pd := by
  obtain ⟨-, h⟩ | ⟨-, h⟩ | ⟨-, h⟩ | ⟨-, h⟩ := onPress_cases s <;> rw [h]
  · exact .inl rfl
  · exact .inl rfl
  · exact .inr rfl
  · exact .inl rfl

/-- At `PK` the loop goes on to `PT`, or by the press that suspends to the settle delay (R104, R190). -/
theorem foregroundStep_fgp_of_pk (hhalt : s.halt = false) (hpk : s.fgp = .pk) :
    (foregroundStep s).fgp = .pt ∨ (foregroundStep s).fgp = .pd := by
  rw [foregroundStep_of_pk hhalt hpk]
  cases pressPending s with
  | true => exact onPress_fgp (drainButton s)
  | false => exact .inl rfl

theorem foregroundStep_moves_of_run (hrun : powerState s = .run) :
    (foregroundStep s).fgp ≠ s.fgp := by
  obtain ⟨hhalt, hpt | hpk | hpw⟩ := run_iff_phases.1 hrun
  · rw [foregroundStep_fgp_of_pt hhalt hpt, hpt]; decide
  · rw [hpk]
    obtain hnext | hnext := foregroundStep_fgp_of_pk hhalt hpk <;> rw [hnext] <;> decide
  · simp [foregroundStep_of_pw hhalt hpw, hpw]

theorem onPress_halt (s : State) : (onPress s).halt = s.halt := by
  obtain ⟨-, h⟩ | ⟨-, h⟩ | ⟨-, h⟩ | ⟨-, h⟩ := onPress_cases s <;> rw [h]

/-- Only `PARKGO`, at the end of the settle delay, halts the block (R162). -/
theorem foregroundStep_halt_of_run (hrun : powerState s = .run) : (foregroundStep s).halt = false := by
  obtain ⟨hhalt, hpt | hpk | hpw⟩ := run_iff_phases.1 hrun
  · exact (foregroundStep_keeps_press_of_pt hhalt hpt).1
  · rw [foregroundStep_of_pk hhalt hpk]
    cases pressPending s with
    | true => exact (onPress_halt (drainButton s)).trans hhalt
    | false => exact hhalt
  · rw [foregroundStep_of_pw hhalt hpw]; exact hhalt

theorem ie_of_run (hpower : PowerInv s) (hrun : powerState s = .run) : s.ie = true := by
  obtain ⟨-, hphase⟩ := powerState_eq_run_iff.1 hrun
  rwa [Ne, ← hpower.deafInDelay, Bool.not_eq_false] at hphase

theorem wakeEn_of_not_halt (hpower : PowerInv s) (hhalt : s.halt = false) : s.wakeEn = false :=
  (wakeEn_eq_halt hpower).trans hhalt

/-- The row of RUN. -/
theorem run_row (hpower : PowerInv s) (hrun : powerState s = .run) :
    (∃ t, exec .fg s = .next t ∧ t.fgp ≠ s.fgp) ∧ exec .sample s = .next (sampleHandler s) ∧
    (s.ten = true → exec .tclk s = .next (if s.tcnt + 1#16 = s.tcmp then timerHandler s
      else { s with tcnt := s.tcnt + 1#16 })) ∧
    (s.ten = false → exec .tclk s = .next s) ∧ s.wakeEn = false := by
  obtain ⟨hhalt, -⟩ := powerState_eq_run_iff.1 hrun
  refine ⟨⟨_, exec_fg s, foregroundStep_moves_of_run hrun⟩, ?_, fun hten => ?_,
    fun hten => exec_tclk_of_gated (.inl hten), wakeEn_of_not_halt hpower hhalt⟩
  · rw [exec_sample, takeSample_of_open hhalt (ie_of_run hpower hrun)]
  · have hgate : tclkGate s = true := (tclkGate_eq_true_iff s).2 ⟨hten, hhalt⟩
    rw [exec_tclk]
    split
    case isTrue hmatch => rw [countStrobe_of_match hgate hmatch]
    case isFalse hmatch => rw [countStrobe_of_no_match hgate hmatch]

/-! ### DELAY and HALTED -/

/-- The row of DELAY. -/
theorem delay_row (hinv : Inv s) (hdelay : powerState s = .delay) :
    exec .fg s = exec .parkgo s ∧ exec .sample s = .next s ∧ s.ten = false ∧
    exec .tclk s = .next s ∧ s.wakeEn = false := by
  obtain ⟨hhalt, hpd, hdeaf⟩ := (delay_iff_deaf hinv.power).1 hdelay
  obtain ⟨-, -, hten, -⟩ := hinv.park.parked (.inl hpd)
  refine ⟨?_, ?_, hten, exec_tclk_of_gated (.inl hten), wakeEn_of_not_halt hinv.power hhalt⟩
  · rw [exec_fg, exec_parkgo, foregroundStep_of_pd hhalt hpd]
  · rw [exec_sample, takeSample_of_closed (.inr hdeaf)]

/-- The row of HALTED. -/
theorem halted_row (hpower : PowerInv s) (hhalted : powerState s = .halted) :
    exec .fg s = .next s ∧ exec .sample s = .next s ∧ exec .tclk s = .next s ∧ s.wakeEn = true := by
  obtain ⟨hhalt, -, harmed⟩ := (halted_iff_parked hpower).1 hhalted
  exact ⟨exec_of_halt hhalt (.inl rfl), exec_of_halt hhalt (.inr (.inl rfl)),
    exec_of_halt hhalt (.inr (.inr rfl)), harmed⟩

/-! ### The changes of power state -/

theorem powerState_resetBlock (s : State) : powerState (resetBlock s) = .run := rfl

/-- Everything an external event can do to the power state while the watch is disarmed. -/
theorem exec_of_disarmed_cases {e : Instr} (hext : e.eventClass = .external)
    (hexec : exec e s = .next t) (hdisarmed : s.wakeEn = false) :
    (e = .reset ∧ powerState t = .run) ∨ (e = .fg ∧ t = foregroundStep s) ∨
      powerState t = powerState s := by
  cases e with
  | reset => cases hexec; exact .inl ⟨rfl, powerState_resetBlock s⟩
  | fg => cases hexec; exact .inr (.inl ⟨rfl, rfl⟩)
  | pin v =>
    cases hexec
    rw [pinChange_of_wakeEn_false hdisarmed]
    exact .inr (.inr (powerState_congr rfl rfl))
  | sample =>
    cases hexec
    obtain ⟨ks, c1, c0, kp, hwrites, -⟩ := takeSample_writes s
    rw [hwrites]
    exact .inr (.inr (powerState_congr rfl rfl))
  | tclk =>
    cases hexec
    obtain ⟨n, k, hwrites, -⟩ := countStrobe_writes s
    rw [hwrites]
    exact .inr (.inr (powerState_congr rfl rfl))
  | pollclr | arm | stop | write | enter | ontick | onpress | park | parkgo | wake => cases hext

/-- RUN is left by the foreground alone, and for the settle delay. -/
theorem leaves_run {e : Instr} (hpower : PowerInv s) (hrun : powerState s = .run)
    (hext : e.eventClass = .external) (hexec : exec e s = .next t)
    (hmoved : powerState t ≠ powerState s) : powerState t = .delay ∧ e = .fg := by
  obtain ⟨hhalt, -⟩ := powerState_eq_run_iff.1 hrun
  obtain ⟨-, hstart⟩ | ⟨hfg, rfl⟩ | hkept :=
    exec_of_disarmed_cases hext hexec (wakeEn_of_not_halt hpower hhalt)
  · exact absurd (hstart.trans hrun.symm) hmoved
  · have hawake : (foregroundStep s).halt = false := foregroundStep_halt_of_run hrun
    rw [hrun, Ne, powerState_eq_run_iff, not_and_not_right] at hmoved
    exact ⟨powerState_eq_delay_iff.2 ⟨hawake, hmoved hawake⟩, hfg⟩
  · exact absurd hkept hmoved

/-- DELAY ends in the halt by the foreground, or by `RESET` (R230). -/
theorem leaves_delay {e : Instr} (hpower : PowerInv s) (hdelay : powerState s = .delay)
    (hext : e.eventClass = .external) (hexec : exec e s = .next t)
    (hmoved : powerState t ≠ powerState s) :
    (powerState t = .halted ∧ e = .fg) ∨ (powerState t = .run ∧ e = .reset) := by
  obtain ⟨hhalt, hpd⟩ := powerState_eq_delay_iff.1 hdelay
  obtain ⟨hreset, hstart⟩ | ⟨hfg, rfl⟩ | hkept :=
    exec_of_disarmed_cases hext hexec (wakeEn_of_not_halt hpower hhalt)
  · exact .inr ⟨hstart, hreset⟩
  · refine .inl ⟨powerState_eq_halted_iff.2 ?_, hfg⟩
    rw [foregroundStep_of_pd hhalt hpd, parkGoBlock_halt]
  · exact absurd hkept hmoved

/-- The halt ends in RUN, by a `PIN` that wakes or by `RESET`. -/
theorem leaves_halted {e : Instr} (hpower : PowerInv s) (hhalted : powerState s = .halted)
    (hext : e.eventClass = .external) (hexec : exec e s = .next t)
    (hmoved : powerState t ≠ powerState s) :
    powerState t = .run ∧ (e = .reset ∨ ∃ v, e = .pin v) := by
  obtain ⟨hhalt, hpw, -⟩ := (halted_iff_parked hpower).1 hhalted
  obtain ⟨rfl, -⟩ | ⟨v, hpin, -, rfl⟩ | ⟨v, rfl⟩ := exec_of_halt_cases hext hhalt hexec
  · cases hexec
    exact ⟨powerState_resetBlock s, .inl rfl⟩
  · exact ⟨run_iff_phases.2 ⟨rfl, .inr (.inr hpw)⟩, .inr ⟨v, hpin⟩⟩
  · exact absurd (powerState_congr rfl rfl) hmoved

end PowerStates

/-- Settles O43: the three rows of the table, and the ways out of each power state. -/
theorem powerStatesFollowTable : Obligations.PowerStatesFollowTable := by
  intro s hinv
  have hpower : PowerInv s := hinv.power
  refine ⟨run_iff_phases, delay_iff_deaf hpower, halted_iff_parked hpower, run_row hpower,
    delay_row hinv, halted_row hpower, fun e t hext hexec hmoved => ?_⟩
  cases hstate : powerState s with
  | run =>
    obtain ⟨hdelay, hfg⟩ := leaves_run hpower hstate hext hexec hmoved
    exact .inl ⟨rfl, hdelay, hfg⟩
  | delay =>
    obtain ⟨hhalted, hfg⟩ | ⟨hrun, hreset⟩ := leaves_delay hpower hstate hext hexec hmoved
    · exact .inr (.inl ⟨rfl, hhalted, hfg⟩)
    · exact .inr (.inr (.inl ⟨rfl, hrun, hreset⟩))
  | halted =>
    obtain ⟨hrun, hevent⟩ := leaves_halted hpower hstate hext hexec hmoved
    exact .inr (.inr (.inr ⟨rfl, hrun, hevent⟩))

end Sys2Proof.Machine
end

section
/-!
PROOFS. The debouncer's promise (`70_reset_and_hazards.md` R238): no lane's count reaches 3, and only a
sample that settles a lane as pressed makes its press pending.
-/

namespace Sys2Proof.Machine

open Safety

/-! ### Events that only drain -/

/-- `t` has the counts of `s`, and no press is pending in it that is not pending in `s`. -/
structure OnlyDrains (s t : State) : Prop where
  ct1 : t.ct1 = s.ct1
  ct0 : t.ct0 = s.ct0
  keyPress : ∀ i, t.keyPress.getLsbD i = true → s.keyPress.getLsbD i = true

theorem OnlyDrains.trans {s t u : State} (hst : OnlyDrains s t) (htu : OnlyDrains t u) :
    OnlyDrains s u :=
  ⟨htu.ct1.trans hst.ct1, htu.ct0.trans hst.ct0, fun i hu => hst.keyPress i (htu.keyPress i hu)⟩

theorem BlindToLanes.onlyDrains {f : State → State} {s : State} (h : BlindToLanes f s) :
    OnlyDrains s (f s) := by
  rw [h.eq_withLanes]
  exact ⟨rfl, rfl, fun _ => id⟩

theorem pinChange_onlyDrains (e : Config.WakeEdge) (v : KeyVec) (s : State) :
    OnlyDrains s (pinChange e v s) := by
  obtain ⟨-, -, -, hwakes⟩ | ⟨-, hquiet⟩ := pinChange_cases e v s
  · rw [hwakes]; exact ⟨rfl, rfl, fun _ => id⟩
  · rw [hquiet]; exact ⟨rfl, rfl, fun _ => id⟩

theorem drainButton_onlyDrains (s : State) : OnlyDrains s (drainButton s) := by
  refine ⟨rfl, rfl, fun i hkept => ?_⟩
  have hboth : (s.keyPress.getLsbD i && (0xFE#8).getLsbD i) = true := BitVec.getLsbD_and ▸ hkept
  exact (Bool.and_eq_true_iff.1 hboth).1

/-- The foreground's poll at `PK` drains the button's press, and nothing else it does looks at a lane. -/
theorem foregroundStep_onlyDrains (s : State) : OnlyDrains s (foregroundStep s) := by
  by_cases hpoll : s.halt = false ∧ s.fgp = .pk
  · obtain ⟨hhalt, hpk⟩ := hpoll
    rw [foregroundStep_of_pk hhalt hpk]
    cases pressPending s with
    | true => exact (drainButton_onlyDrains s).trans (onPress_blindToLanes _).onlyDrains
    | false => exact drainButton_onlyDrains s
  · rw [not_and_or, Bool.not_eq_false] at hpoll
    exact (foregroundStep_blindToLanes hpoll).onlyDrains

/-! ### R238 of one event -/

/-- From `s` to `t` the counts stay below 3, and a press becomes pending only as its lane settles. -/
structure LatchesOnlyWhenSettling (s t : State) : Prop where
  counts : DebInv s → DebInv t
  latches : ∀ i, s.keyPress.getLsbD i = false → t.keyPress.getLsbD i = true →
    s.keyState.getLsbD i = false ∧ t.keyState.getLsbD i = true

theorem OnlyDrains.latchesOnlyWhenSettling {s t : State} (h : OnlyDrains s t) :
    LatchesOnlyWhenSettling s t := by
  refine ⟨fun hcounts => ?_, fun i hclear hset => ?_⟩
  · rwa [DebInv, h.ct1, h.ct0]
  · exact absurd (hclear.symm.trans (h.keyPress i hset)) Bool.false_ne_true

theorem resetBlock_debInv (s : State) : DebInv (resetBlock s) := BitVec.zero_and

theorem resetBlock_latchesOnlyWhenSettling (s : State) :
    LatchesOnlyWhenSettling s (resetBlock s) :=
  ⟨fun _ => resetBlock_debInv s,
    fun _ _ hset => absurd (BitVec.getLsbD_zero.symm.trans hset) Bool.false_ne_true⟩

/-- `CT1'` keeps a lane that has `CT0` set and `CT0'` one that has it clear (R124), so no lane gets both. -/
theorem sampleHandler_debInv (s : State) : DebInv (sampleHandler s) := by
  rw [DebInv, sampleHandler_ct1, sampleHandler_ct0, debCt1, debCt0]
  ext i
  cases hbit : s.ct0[i] <;> simp [hbit]

/-- A bit that R124's `KEY_PRESS` equation sets stands for a toggle away from released. -/
theorem sampleHandler_latches {s : State} {i : Nat} (hclear : s.keyPress.getLsbD i = false)
    (hset : (sampleHandler s).keyPress.getLsbD i = true) :
    s.keyState.getLsbD i = false ∧ (sampleHandler s).keyState.getLsbD i = true := by
  have hlane : i < Config.keyW := BitVec.lt_of_getLsbD hset
  rw [sampleHandler_keyPress, getLsbD_debKeyPress s hlane, hclear, Bool.false_or,
    Bool.and_eq_true_iff, Bool.not_eq_true'] at hset
  obtain ⟨htoggles, hreleased⟩ := hset
  refine ⟨hreleased, ?_⟩
  rw [sampleHandler_keyState, getLsbD_debKeyState, hreleased, htoggles, Bool.false_xor]

theorem takeSample_latchesOnlyWhenSettling (s : State) :
    LatchesOnlyWhenSettling s (takeInterrupt .sample s) := by
  obtain ⟨-, hclosed⟩ | ⟨-, -, hopen⟩ := takeSample_cases s
  · rw [hclosed]
    exact (BlindToLanes.idle s).onlyDrains.latchesOnlyWhenSettling
  · rw [hopen]
    exact ⟨fun _ => sampleHandler_debInv s, fun _ => sampleHandler_latches⟩

theorem exec_latchesOnlyWhenSettling {e : Instr} {s t : State} (hext : e.eventClass = .external)
    (hexec : exec e s = .next t) : LatchesOnlyWhenSettling s t := by
  cases e with
  | reset => cases hexec; exact resetBlock_latchesOnlyWhenSettling s
  | pin v => cases hexec; exact (pinChange_onlyDrains _ v s).latchesOnlyWhenSettling
  | sample => cases hexec; exact takeSample_latchesOnlyWhenSettling s
  | tclk => cases hexec; exact (countStrobe_blindToLanes s).onlyDrains.latchesOnlyWhenSettling
  | fg => cases hexec; exact (foregroundStep_onlyDrains s).latchesOnlyWhenSettling
  | pollclr | arm | stop | write | enter | ontick | onpress | park | parkgo | wake => cases hext

/-- Settles O18: every event but `RESET` and an open `SAMPLE` only drains. -/
theorem pressesAreLatchedOnlyWhenSettling : Obligations.PressesAreLatchedOnlyWhenSettling := by
  intro e s t hext hexec
  obtain ⟨hcounts, hlatches⟩ := exec_latchesOnlyWhenSettling hext hexec
  exact ⟨hcounts, hlatches⟩

end Sys2Proof.Machine
end

section
/-!
PROOFS. `RESET` (`70_reset_and_hazards.md` R230, R232) and the invariants (R236 to R238 and
`43_mode_timer.md` R147): what each invariant reads, what gives it, that the start state has them all, and
that every external event keeps them, `FG` phase by phase.
-/

namespace Sys2Proof.Machine

open Safety

/-! ### The Sweep cycle (R103, R236) -/

/-- The one set bit of a vector of popcount 1 (R13). -/
theorem eq_twoPow_of_popcount_eq_one {w : Nat} {v : BitVec w} (h : popcount v = 1) :
    ∃ i < w, v = BitVec.twoPow w i := by
  rw [popcount, List.countP_eq_length_filter, List.length_eq_one_iff] at h
  obtain ⟨i, hfilter⟩ := h
  have hset (j : Nat) : (j < w ∧ v.getLsbD j = true) ↔ j = i := by
    have hmem : j ∈ (List.range w).filter (fun k => v.getLsbD k) ↔ j ∈ [i] := by rw [hfilter]
    simpa using hmem
  obtain ⟨hi, -⟩ := (hset i).2 rfl
  refine ⟨i, hi, BitVec.eq_of_getLsbD_eq fun j hj => ?_⟩
  rw [Bool.eq_iff_iff, BitVec.getLsbD_twoPow]
  simpa [hi, hj, eq_comm (a := i) (b := j)] using hset j

/-- R236's conditions on the pair say that it is one of the fourteen of R103's cycle. -/
theorem mem_sweepCycle_iff (p : Pattern) (d : Direction) :
    (p, d) ∈ sweepCycle ↔ popcount p = 1 ∧ ¬(p = Config.sweepTop ∧ d = .ascending) ∧
      ¬(p = Config.sweepInit ∧ d = .descending) := by
  constructor
  · have hlist : ∀ q ∈ sweepCycle, popcount q.1 = 1 ∧
        ¬(q.1 = Config.sweepTop ∧ q.2 = .ascending) ∧
        ¬(q.1 = Config.sweepInit ∧ q.2 = .descending) := by decide
    exact hlist (p, d)
  · rintro ⟨honeHot, hnotTop, hnotBottom⟩
    obtain ⟨i, hi, rfl⟩ := eq_twoPow_of_popcount_eq_one honeHot
    have hbits : ∀ i < 8, (BitVec.twoPow 8 i ≠ Config.sweepTop →
          (BitVec.twoPow 8 i, .ascending) ∈ sweepCycle) ∧
        (BitVec.twoPow 8 i ≠ Config.sweepInit →
          (BitVec.twoPow 8 i, .descending) ∈ sweepCycle) := by decide
    obtain ⟨hascending, hdescending⟩ := hbits i hi
    cases d with
    | ascending => exact hascending fun htop => hnotTop ⟨htop, rfl⟩
    | descending => exact hdescending fun hbottom => hnotBottom ⟨hbottom, rfl⟩

/-- A Sweep tick goes round the cycle. -/
theorem sweepNext_mem_sweepCycle : ∀ q ∈ sweepCycle, sweepNext q ∈ sweepCycle := by decide

section Invariants

variable {s t : State}

/-! ### What each invariant reads -/

theorem sweepInv_congr (h : SweepInv s) (hmode : t.mode = s.mode) (hpat : t.pat = s.pat)
    (hdir : t.dir = s.dir) (hled : t.led = s.led) : SweepInv t := by
  obtain ⟨honeHot, hnotTop, hnotBottom, hshown, hdark⟩ := h
  rw [← hmode, ← hpat, ← hled] at hshown
  rw [← hmode, ← hpat, ← hdir, ← hled] at hdark
  rw [← hpat] at honeHot
  rw [← hpat, ← hdir] at hnotTop hnotBottom
  exact ⟨honeHot, hnotTop, hnotBottom, hshown, hdark⟩

theorem powerInv_congr (h : PowerInv s) (hwakeEn : t.wakeEn = s.wakeEn) (hhalt : t.halt = s.halt)
    (hie : t.ie = s.ie) (hfgp : t.fgp = s.fgp) : PowerInv t := by
  obtain ⟨hdeaf, hwatched, hparked⟩ := h
  rw [← hie, ← hfgp] at hdeaf
  rw [← hhalt, ← hwakeEn] at hwatched
  rw [← hhalt, ← hfgp] at hparked
  exact ⟨hdeaf, hwatched, hparked⟩

theorem parkInv_congr (h : ParkInv s) (hmode : t.mode = s.mode) (hled : t.led = s.led)
    (hten : t.ten = s.ten) (htcnt : t.tcnt = s.tcnt) (htick : t.tick = s.tick)
    (hfgp : t.fgp = s.fgp) : ParkInv t := by
  obtain ⟨hparked, hnoKeys, hwaits, hdark⟩ := h
  rw [← hfgp, ← hmode, ← hled, ← hten, ← htcnt, ← htick] at hparked
  rw [← hmode, ← hfgp] at hnoKeys
  rw [← hmode, ← hfgp, ← htick] at hwaits
  rw [← hmode, ← hled] at hdark
  exact ⟨hparked, hnoKeys, hwaits, hdark⟩

theorem timerInv_congr (h : TimerInv s) (hmode : t.mode = s.mode) (hten : t.ten = s.ten)
    (htcmp : t.tcmp = s.tcmp) (htcnt : t.tcnt = s.tcnt) : TimerInv t := by
  obtain ⟨harmed, hthreshold, hbelow, hstopped⟩ := h
  rw [← hten, ← hmode] at harmed
  rw [← hten, ← hmode, ← htcmp] at hthreshold
  rw [← hten, ← htcnt, ← htcmp] at hbelow
  rw [← hten, ← htcnt] at hstopped
  exact ⟨harmed, hthreshold, hbelow, hstopped⟩

/-- No invariant reads the lines, the settled levels, the pending presses or the words
that wait. -/
theorem inv_withLanes (hinv : Inv s) {c1 c0 : KeyVec} (hcounts : c1 &&& c0 = 0#8)
    (ks kp ki : KeyVec) (ws : List EventWord) :
    Inv { s.withLanes ks c1 c0 kp ki with trace := ws } :=
  ⟨sweepInv_congr hinv.sweep rfl rfl rfl rfl, powerInv_congr hinv.power rfl rfl rfl rfl,
    parkInv_congr hinv.park rfl rfl rfl rfl rfl rfl, timerInv_congr hinv.timer rfl rfl rfl rfl,
    hcounts⟩

/-! ### Ways to have them -/

theorem sweepInv_of_not_sweep (hcycle : (s.pat, s.dir) ∈ sweepCycle) (hmode : s.mode ≠ .sweep) :
    SweepInv s := by
  obtain ⟨honeHot, hnotTop, hnotBottom⟩ := (mem_sweepCycle_iff _ _).1 hcycle
  exact ⟨honeHot, hnotTop, hnotBottom, fun hsweep => absurd hsweep hmode,
    fun hsweep => absurd hsweep hmode⟩

/-- A pattern of the cycle is not dark, so `LED` showing it meets R236. -/
theorem sweepInv_of_shown (hcycle : (s.pat, s.dir) ∈ sweepCycle) (hshown : s.led = s.pat) :
    SweepInv s := by
  obtain ⟨honeHot, hnotTop, hnotBottom⟩ := (mem_sweepCycle_iff _ _).1 hcycle
  refine ⟨honeHot, hnotTop, hnotBottom, fun _ => .inl hshown, fun _ hdark => ?_⟩
  rw [← hshown, hdark] at honeHot
  exact absurd honeHot (by decide)

/-- As `ENTER Sweep` leaves the Sweep Working State after a reset or a wake. -/
theorem sweepInv_of_dark (hpat : s.pat = Config.sweepInit) (hdir : s.dir = .ascending)
    (hdark : s.led = Config.allOff) : SweepInv s := by
  have hcycle : (s.pat, s.dir) ∈ sweepCycle := by rw [hpat, hdir]; decide
  obtain ⟨honeHot, hnotTop, hnotBottom⟩ := (mem_sweepCycle_iff _ _).1 hcycle
  exact ⟨honeHot, hnotTop, hnotBottom, fun _ => .inr hdark, fun _ _ => ⟨hpat, hdir⟩⟩

theorem mem_sweepCycle_of_sweepInv (h : SweepInv s) : (s.pat, s.dir) ∈ sweepCycle :=
  (mem_sweepCycle_iff _ _).2 ⟨h.oneHot, h.notOffTop, h.notOffBottom⟩

theorem powerInv_of_run (hphase : s.fgp ≠ .pd) (hie : s.ie = true) (hhalt : s.halt = false)
    (hwakeEn : s.wakeEn = false) : PowerInv s :=
  ⟨by simp [hie, hphase], by simp [hhalt, hwakeEn], by simp [hhalt]⟩

theorem powerInv_of_delay (hphase : s.fgp = .pd) (hie : s.ie = false) (hhalt : s.halt = false)
    (hwakeEn : s.wakeEn = false) : PowerInv s :=
  ⟨by simp [hie, hphase], by simp [hhalt, hwakeEn], by simp [hhalt]⟩

theorem powerInv_of_halted (hphase : s.fgp = .pw) (hie : s.ie = true) (hhalt : s.halt = true)
    (hwakeEn : s.wakeEn = true) : PowerInv s :=
  ⟨by simp [hie, hphase], by simp [hhalt, hwakeEn], fun _ => hphase⟩

theorem not_parked_of_polls (hphase : s.fgp = .pt ∨ s.fgp = .pk) :
    ¬(s.fgp = .pd ∨ s.fgp = .pw) := by
  obtain hpt | hpk := hphase
  · simp [hpt]
  · simp [hpk]

theorem parkInv_of_running (hrunning : s.mode ≠ .suspended) (hphase : s.fgp = .pt ∨ s.fgp = .pk) :
    ParkInv s :=
  ⟨fun hparked => absurd hparked (not_parked_of_polls hphase),
    fun hsuspended => absurd hsuspended hrunning, fun hsuspended => absurd hsuspended hrunning,
    fun hsuspended => absurd hsuspended hrunning⟩

theorem parkInv_of_parked (hphase : s.fgp = .pd ∨ s.fgp = .pw)
    (hoff : s.mode = .suspended ∧ s.led = Config.allOff ∧ s.ten = false ∧ s.tcnt = 0#16 ∧
      s.tick = false) : ParkInv s := by
  have ⟨_, hdark, _⟩ := hoff
  refine ⟨fun _ => hoff, fun _ => ?_, fun _ hpt => ?_, fun _ => hdark⟩
  · obtain hpd | hpw := hphase
    · simp [hpd]
    · simp [hpw]
  · simp [hpt] at hphase

/-- Every period is at least 1 (R7), so a timer just armed counts below its threshold (R147). -/
theorem period_pos {m : Mode} {p : TimerVal} (h : Config.period m = some p) : 0 < p.toNat := by
  cases m with
  | sweep => cases h; exact Config.pSweep_pos
  | alternate => cases h; exact Config.pAlt_pos
  | flash => cases h; exact Config.pFlash_pos
  | suspended => cases h

theorem timerInv_of_armed (hten : s.ten = true) (hperiod : Config.period s.mode = some s.tcmp)
    (hbelow : s.tcnt.toNat < s.tcmp.toNat) : TimerInv s := by
  have hrunning : s.mode ≠ .suspended := fun hsuspended => by
    simp [hsuspended, Config.period] at hperiod
  exact ⟨iff_of_true hten hrunning, fun _ => hperiod, fun _ => hbelow, by simp [hten]⟩

/-- As `ARM` leaves the timer. -/
theorem timerInv_of_armed_at_zero (hten : s.ten = true)
    (hperiod : Config.period s.mode = some s.tcmp) (hzero : s.tcnt = 0#16) : TimerInv s :=
  timerInv_of_armed hten hperiod (by rw [hzero]; exact period_pos hperiod)

theorem timerInv_of_stopped (hten : s.ten = false) (hsuspended : s.mode = .suspended)
    (hzero : s.tcnt = 0#16) : TimerInv s :=
  ⟨by simp [hten, hsuspended], by simp [hten], by simp [hten], fun _ => hzero⟩

/-! ### What they say of a running mode -/

/-- In a running mode the foreground polls. -/
theorem polls_of_running (hpark : ParkInv s) (hrunning : s.mode ≠ .suspended) :
    s.fgp = .pt ∨ s.fgp = .pk := by
  cases hphase : s.fgp with
  | pt => exact .inl rfl
  | pk => exact .inr rfl
  | pd => exact absurd (hpark.parked (.inl hphase)).1 hrunning
  | pw => exact absurd (hpark.parked (.inr hphase)).1 hrunning

/-- An awake block outside the settle delay is in RUN, which hears interrupts with the watch disarmed. -/
theorem hears_of_awake (hpower : PowerInv s) (hhalt : s.halt = false) (hphase : s.fgp ≠ .pd) :
    s.ie = true ∧ s.wakeEn = false :=
  ⟨ie_of_run hpower (powerState_eq_run_iff.2 ⟨hhalt, hphase⟩), wakeEn_of_not_halt hpower hhalt⟩

/-! ### `RESET` (R230) -/

theorem inv_resetBlock (s : State) : Inv (resetBlock s) where
  sweep := sweepInv_of_dark rfl rfl rfl
  power := powerInv_of_run nofun rfl rfl rfl
  park := parkInv_of_running nofun (.inl rfl)
  timer := timerInv_of_armed_at_zero rfl rfl rfl
  deb := resetBlock_debInv s

/-! ### `PIN`, `SAMPLE` and `TCLK` -/

/-- A wake lifts the halt and disarms the watch together (R166). -/
theorem pinChange_inv (hinv : Inv s) (e : Config.WakeEdge) (v : KeyVec) : Inv (pinChange e v s) := by
  obtain ⟨-, hie, -, hwakes⟩ | ⟨-, hquiet⟩ := pinChange_cases e v s
  · have hphase : s.fgp ≠ .pd := fun hpd => by simp [hinv.power.deafInDelay.2 hpd] at hie
    rw [hwakes]
    exact ⟨sweepInv_congr hinv.sweep rfl rfl rfl rfl, powerInv_of_run hphase hie rfl rfl,
      parkInv_congr hinv.park rfl rfl rfl rfl rfl rfl,
      timerInv_congr hinv.timer rfl rfl rfl rfl, hinv.deb⟩
  · rw [hquiet]
    exact inv_withLanes hinv hinv.deb s.keyState s.keyPress v s.trace

theorem takeSample_inv (hinv : Inv s) : Inv (takeInterrupt .sample s) := by
  obtain ⟨-, hclosed⟩ | ⟨-, -, hopen⟩ := takeSample_cases s
  · rwa [hclosed]
  · rw [hopen]
    exact inv_withLanes hinv (sampleHandler_debInv s) (debKeyState s) (debKeyPress s) s.keyin s.trace

/-- Below the threshold a count does not wrap, and it either reaches the threshold or stays below. -/
theorem count_below_of_no_match {n p : TimerVal} (hbelow : n.toNat < p.toNat) (hno : n + 1#16 ≠ p) :
    (n + 1#16).toNat < p.toNat := by
  bv_omega

/-- The timer counts in a running mode only, so a raised tick reaches a polling foreground. -/
theorem countStrobe_inv (hinv : Inv s) : Inv (countStrobe s) := by
  obtain ⟨-, hclosed⟩ | ⟨hten, -, -, hticks⟩ | ⟨hten, -, hno, hcounts⟩ := countStrobe_cases s
  · rwa [hclosed]
  · have hrunning : s.mode ≠ .suspended := hinv.timer.armedWhenRunning.1 hten
    have hpolls : s.fgp = .pt ∨ s.fgp = .pk := polls_of_running hinv.park hrunning
    rw [hticks]
    exact ⟨sweepInv_congr hinv.sweep rfl rfl rfl rfl, powerInv_congr hinv.power rfl rfl rfl rfl,
      parkInv_of_running hrunning hpolls,
      timerInv_of_armed_at_zero hten (hinv.timer.threshold hten) rfl, hinv.deb⟩
  · have hrunning : s.mode ≠ .suspended := hinv.timer.armedWhenRunning.1 hten
    have hpolls : s.fgp = .pt ∨ s.fgp = .pk := polls_of_running hinv.park hrunning
    have hbelow := count_below_of_no_match (hinv.timer.countBelow hten) hno
    rw [hcounts]
    exact ⟨sweepInv_congr hinv.sweep rfl rfl rfl rfl, powerInv_congr hinv.power rfl rfl rfl rfl,
      parkInv_of_running hrunning hpolls,
      timerInv_of_armed hten (hinv.timer.threshold hten) hbelow, hinv.deb⟩

/-! ### `FG` at `PT` -/

theorem onTick_sweepInv (hinv : Inv s) : SweepInv (onTick s) := by
  have hcycle : (s.pat, s.dir) ∈ sweepCycle := mem_sweepCycle_of_sweepInv hinv.sweep
  cases hmode : s.mode with
  | sweep =>
    rw [onTick_sweep_eq hmode]
    exact sweepInv_of_shown (sweepNext_mem_sweepCycle _ hcycle) rfl
  | alternate | flash =>
    rw [onTick_toggle (by simp [hmode])]
    exact sweepInv_of_not_sweep hcycle (by simp [hmode])
  | suspended =>
    rw [onTick_suspended hmode]
    exact sweepInv_of_dark rfl rfl (hinv.park.dark hmode)

theorem onTick_timerInv (h : TimerInv s) : TimerInv (onTick s) := by
  cases hmode : s.mode with
  | sweep =>
    rw [onTick_sweep_eq hmode]
    exact timerInv_congr h rfl rfl rfl rfl
  | alternate | flash =>
    rw [onTick_toggle (by simp [hmode])]
    exact timerInv_congr h rfl rfl rfl rfl
  | suspended =>
    rw [onTick_suspended hmode]
    exact timerInv_of_armed_at_zero rfl rfl rfl

theorem onTick_running (s : State) : (onTick s).mode ≠ .suspended := by
  rw [onTick_mode]
  split
  case isTrue => nofun
  case isFalse hrunning => exact hrunning

/-- A tick leads to a running mode: it is the mode's own, or the recovery after a wake (R102). -/
theorem foregroundStep_inv_of_pt_tick (hinv : Inv s) (hhalt : s.halt = false) (hpt : s.fgp = .pt)
    (htick : s.tick = true) : Inv (foregroundStep s) := by
  obtain ⟨hie, hwakeEn⟩ := hears_of_awake hinv.power hhalt (by simp [hpt])
  have hpasses : PassesSampler onTick s := onTick_passesSampler s
  rw [foregroundStep_of_pt_tick hhalt hpt htick]
  exact
    { sweep := sweepInv_congr (onTick_sweepInv hinv) rfl rfl rfl rfl
      power := powerInv_of_run nofun (hpasses.ie.trans hie) (hpasses.halt.trans hhalt)
        ((onTick_wakeEn s).trans hwakeEn)
      park := parkInv_of_running (onTick_running s) (.inr rfl)
      timer := timerInv_congr (onTick_timerInv hinv.timer) rfl rfl rfl rfl
      deb := (onTick_blindToLanes s).onlyDrains.latchesOnlyWhenSettling.counts hinv.deb }

/-- With no tick waiting the mode is a running one, so the foreground may go on to poll the keys. -/
theorem foregroundStep_inv_of_pt_quiet (hinv : Inv s) (hhalt : s.halt = false) (hpt : s.fgp = .pt)
    (htick : s.tick = false) : Inv (foregroundStep s) := by
  obtain ⟨hie, hwakeEn⟩ := hears_of_awake hinv.power hhalt (by simp [hpt])
  have hrunning : s.mode ≠ .suspended := fun hsuspended => by
    simp [hinv.park.tickWaits hsuspended hpt] at htick
  rw [foregroundStep_of_pt_quiet hhalt hpt htick]
  exact ⟨sweepInv_congr hinv.sweep rfl rfl rfl rfl, powerInv_of_run nofun hie hhalt hwakeEn,
    parkInv_of_running hrunning (.inr rfl), timerInv_congr hinv.timer rfl rfl rfl rfl, hinv.deb⟩

/-! ### `FG` at `PK` -/

theorem drainButton_inv (hinv : Inv s) (hhalt : s.halt = false) (hpk : s.fgp = .pk) :
    Inv (drainButton s) := by
  obtain ⟨hie, hwakeEn⟩ := hears_of_awake hinv.power hhalt (by simp [hpk])
  have hrunning : s.mode ≠ .suspended := fun hsuspended => hinv.park.neverPollsKeys hsuspended hpk
  exact ⟨sweepInv_congr hinv.sweep rfl rfl rfl rfl, powerInv_of_run nofun hie hhalt hwakeEn,
    parkInv_of_running hrunning (.inl rfl), timerInv_congr hinv.timer rfl rfl rfl rfl, hinv.deb⟩

/-- A press in a running mode arms the next running mode, or from Flash stops and parks (R104). -/
theorem onPress_inv (hinv : Inv s) (hhalt : s.halt = false) (hrunning : s.mode ≠ .suspended) :
    Inv (onPress s) := by
  have hpolls : s.fgp = .pt ∨ s.fgp = .pk := polls_of_running hinv.park hrunning
  have hphase : s.fgp ≠ .pd := fun hpd => not_parked_of_polls hpolls (.inl hpd)
  obtain ⟨hie, hwakeEn⟩ := hears_of_awake hinv.power hhalt hphase
  have hcycle : (s.pat, s.dir) ∈ sweepCycle := mem_sweepCycle_of_sweepInv hinv.sweep
  cases hmode : s.mode with
  | sweep =>
    rw [onPress_sweep hmode]
    exact ⟨sweepInv_of_not_sweep hcycle nofun, powerInv_of_run hphase hie hhalt hwakeEn,
      parkInv_of_running nofun hpolls, timerInv_of_armed_at_zero rfl rfl rfl, hinv.deb⟩
  | alternate =>
    rw [onPress_alternate hmode]
    exact ⟨sweepInv_of_not_sweep hcycle nofun, powerInv_of_run hphase hie hhalt hwakeEn,
      parkInv_of_running nofun hpolls, timerInv_of_armed_at_zero rfl rfl rfl, hinv.deb⟩
  | flash =>
    rw [onPress_flash hmode]
    exact ⟨sweepInv_of_not_sweep hcycle nofun, powerInv_of_delay rfl rfl hhalt hwakeEn,
      parkInv_of_parked (.inl rfl) ⟨rfl, rfl, rfl, rfl, rfl⟩, timerInv_of_stopped rfl rfl rfl,
      hinv.deb⟩
  | suspended => exact absurd hmode hrunning

theorem foregroundStep_inv_of_pk (hinv : Inv s) (hhalt : s.halt = false) (hpk : s.fgp = .pk) :
    Inv (foregroundStep s) := by
  have hdrained : Inv (drainButton s) := drainButton_inv hinv hhalt hpk
  rw [foregroundStep_of_pk hhalt hpk]
  cases pressPending s with
  | true =>
    exact onPress_inv hdrained hhalt fun hsuspended => hinv.park.neverPollsKeys hsuspended hpk
  | false => exact hdrained

/-! ### `FG` at `PD` and at `PW` -/

/-- The block stays off from the settle delay into the halt (R162). -/
theorem foregroundStep_inv_of_pd (hinv : Inv s) (hhalt : s.halt = false) (hpd : s.fgp = .pd) :
    Inv (foregroundStep s) := by
  rw [foregroundStep_of_pd hhalt hpd]
  exact ⟨sweepInv_congr hinv.sweep rfl rfl rfl rfl, powerInv_of_halted rfl rfl rfl rfl,
    parkInv_of_parked (.inr rfl) (hinv.park.parked (.inl hpd)),
    timerInv_congr hinv.timer rfl rfl rfl rfl, hinv.deb⟩

/-- After a wake the mode is still Suspended, with the synthesised tick waiting (R105). -/
theorem foregroundStep_inv_of_pw (hinv : Inv s) (hhalt : s.halt = false) (hpw : s.fgp = .pw) :
    Inv (foregroundStep s) := by
  obtain ⟨hie, hwakeEn⟩ := hears_of_awake hinv.power hhalt (by simp [hpw])
  have hpark : ParkInv { s with tick := true, fgp := .pt } :=
    ⟨nofun, nofun, fun _ _ => rfl, hinv.park.dark⟩
  rw [foregroundStep_of_pw hhalt hpw]
  exact ⟨sweepInv_congr hinv.sweep rfl rfl rfl rfl, powerInv_of_run nofun hie hhalt hwakeEn,
    hpark, timerInv_congr hinv.timer rfl rfl rfl rfl, hinv.deb⟩

/-! ### Every external event -/

theorem foregroundStep_inv (hinv : Inv s) : Inv (foregroundStep s) := by
  cases hhalt : s.halt with
  | true => rwa [foregroundStep_of_halt hhalt]
  | false =>
    cases hphase : s.fgp with
    | pt =>
      cases htick : s.tick with
      | false => exact foregroundStep_inv_of_pt_quiet hinv hhalt hphase htick
      | true => exact foregroundStep_inv_of_pt_tick hinv hhalt hphase htick
    | pk => exact foregroundStep_inv_of_pk hinv hhalt hphase
    | pd => exact foregroundStep_inv_of_pd hinv hhalt hphase
    | pw => exact foregroundStep_inv_of_pw hinv hhalt hphase

theorem exec_inv {e : Instr} (hext : e.eventClass = .external) (hinv : Inv s)
    (hexec : exec e s = .next t) : Inv t := by
  cases e with
  | reset => cases hexec; exact inv_resetBlock s
  | pin v => cases hexec; exact pinChange_inv hinv _ v
  | sample => cases hexec; exact takeSample_inv hinv
  | tclk => cases hexec; exact countStrobe_inv hinv
  | fg => cases hexec; exact foregroundStep_inv hinv
  | pollclr | arm | stop | write | enter | ontick | onpress | park | parkgo | wake => cases hext

end Invariants

/-! ### The step -/

/-- A step that answers a next state is idle, or runs the word at the head of the trace (R16, R87). -/
theorem step_next_cases {s t : State} (hstep : step s = .next t) :
    t = s ∨ ∃ (w : EventWord) (rest : List EventWord) (i : Instr), s.trace = w :: rest ∧
      decode s.level w = .ok i ∧ exec i { s with trace := rest } = .next t := by
  cases htrace : s.trace with
  | nil =>
    cases (step_of_trace_nil htrace).symm.trans hstep
    exact .inl rfl
  | cons w rest =>
    cases hdecode : decode s.level w with
    | error r => cases (step_of_decode_error htrace hdecode).symm.trans hstep
    | ok i =>
      have hexec := (step_of_decode_ok htrace hdecode).symm.trans hstep
      exact .inr ⟨w, rest, i, rfl, hdecode, hexec⟩

/-- Settles O42: a top-level word is an external event, and each of those keeps the invariants. -/
theorem stepKeepsInv : Obligations.StepKeepsInv := by
  intro s t hlevel hinv hstep
  obtain rfl | ⟨w, rest, i, -, hdecode, hexec⟩ := step_next_cases hstep
  · exact ⟨hinv, hlevel⟩
  · rw [hlevel] at hdecode
    obtain ⟨-, hext⟩ := external_of_decode_top hdecode
    have htaken : Inv { s with trace := rest } :=
      inv_withLanes hinv hinv.deb s.keyState s.keyPress s.keyin rest
    exact ⟨exec_inv hext htaken hexec, (exec_sameTrace hexec).level.trans hlevel⟩

/-! ### The start state (R230, R232) -/

/-- Settles O39: `RESET` writes fixed values, so doing it again changes nothing. -/
theorem resetLeavesStartState : Obligations.ResetLeavesStartState := by
  refine ⟨decode_encode_of_external (i := .reset) rfl .top, ?_⟩
  rintro s t rfl
  exact ⟨exec_reset s, exec_reset _⟩

/-- Settles O40: the values of R232, register by register. -/
theorem resetStateIsStartState : Obligations.ResetStateIsStartState :=
  ⟨rfl, rfl, rfl, rfl, rfl, rfl, rfl, rfl, rfl, rfl, rfl, rfl, rfl, rfl, rfl, rfl⟩

/-- Settles O41: the start state is the one `RESET` leaves, whatever the lines read and whatever waits. -/
theorem invHoldsAtReset : Obligations.InvHoldsAtReset := fun v ws =>
  inv_resetBlock { State.reset with keyin := v, trace := ws }

end Sys2Proof.Machine
end
